-- ==== Sys2Proof/Word.lean ====
section
/-! DEFINITION. The words of the engine: a register, a command and a bus address are 32 bits wide
(00_scope.md R10), system memory is addressed by the byte (20_memory.md R150). -/

namespace Sys2Proof

/-- A register value, a command word, a 32-bit system-memory address (00_scope.md R10). -/
abbrev Word := BitVec 32

/-- One byte of system memory (20_memory.md R150). -/
abbrev Byte := BitVec 8

/-- The size of the system-memory address space, 2^32 bytes (20_memory.md R150, R151). -/
abbrev addressSpace : Nat := 4294967296

end Sys2Proof
end

