-- ==== Sys2Proof/Config.lean ====
section
/-! DEFINITION. What the platform fixes (00_scope.md R10, 92_eei_decisions.md open parameters) and the
free values the spec leaves open (93_implementation_defined.md). -/

namespace Sys2Proof

/-- The `kind` of a system-memory access (20_memory.md R150). -/
inductive AccessKind where
  | read
  | write
deriving DecidableEq, Repr

/-- One range of system-memory addresses, `first` to `last` inclusive, that the platform answers
"error" for accesses of one kind. A finite list of these expresses every predicate `MemAdmit` on a
32-bit address and a kind (20_memory.md R150). -/
structure RefusedRange where
  kind  : AccessKind
  first : Nat
  last  : Nat
deriving DecidableEq, Repr

/-- The platform parameters a job depends on: `MAX_DOTS` (00_scope.md R10) and `MemAdmit`, given by the
ranges it refuses (20_memory.md R150). Plain data, so that a machine with any platform can be
written out (log 16). -/
structure Platform where
  maxDots : Nat
  refused : List RefusedRange
deriving DecidableEq, Repr

/-- The reference device: `MAX_DOTS` = 384 (00_scope.md R10) on a platform that admits every byte.
DESIGN CHOICE (log 16): the spec leaves `MemAdmit` open. -/
def Platform.reference : Platform := { maxDots := 384, refused := [] }

/-- FREE VALUE: the unspecified bytes of 93_implementation_defined.md U4, U7 and U10, one for each value
of `State.fresh` (logs 7, 8, 9). -/
opaque Config.freeByte : Nat → Byte

/-- FREE VALUE: bits [15:0] of a host read of a LUT entry not written since reset
(93_implementation_defined.md U1; log 3). -/
opaque Config.freeLutRead : Nat → BitVec 16

/-- FREE VALUE: which element of `Bad` a `BUS_FAULT` reports (93_implementation_defined.md U6; log 6). -/
opaque Config.freePick : Nat → Nat

/-- Platform parameter `REG_BASE`: where the register window sits in the host's map; no rule depends
on its value (00_scope.md R10, 93_implementation_defined.md P2; log 17). -/
opaque Config.regBase : Word

/-- Platform parameter `IRQ_LINE`: the interrupt-controller input `irq` drives (60_exceptions.md R460,
93_implementation_defined.md P3; log 17). -/
opaque Config.irqLine : Nat

end Sys2Proof
end

