-- ==== Sys2Proof/Syntax.lean ====
section
/-! DEFINITION. The commands of the engine, one constructor per row of spec/opcode_table.json
(30_encoding.md R201). -/

namespace Sys2Proof

/-- A command. A command word carries no operand but `TAG` (30_encoding.md R204). -/
inductive Instr where
  /-- `NOP`, OP 0x0 (40_commands.md R260). -/
  | nop (tag : BitVec 8)
  /-- `RUN`, OP 0x1 (40_commands.md R270). -/
  | run (tag : BitVec 8)
  /-- `PREP`, OP 0x2 (40_commands.md R275). -/
  | prep (tag : BitVec 8)
  /-- `DITHER`, OP 0x3 (40_commands.md R280). -/
  | dither (tag : BitVec 8)
  /-- `PACK`, OP 0x4 (40_commands.md R285). -/
  | pack (tag : BitVec 8)
  /-- Every word that is not legal, with its four fields as they stand (40_commands.md R290;
  30_encoding.md R206). -/
  | illegal (op : BitVec 4) (rsv0 : BitVec 4) (tag : BitVec 8) (rsv1 : BitVec 16)
deriving DecidableEq, Repr

/-- The `TAG` field of a command (30_encoding.md R202). -/
def Instr.tag : Instr → BitVec 8
  | .nop t => t
  | .run t => t
  | .prep t => t
  | .dither t => t
  | .pack t => t
  | .illegal _ _ t _ => t

end Sys2Proof
end

