-- ==== Sys2Proof/WellFormed.lean ====
section
/-! DEFINITION. Which terms of `Instr` stand for a command word, and which platforms are legal. -/

namespace Sys2Proof

/-- An `illegal` term is a command only when its fields make the word illegal: `OP` above 4 or a
nonzero reserved field (30_encoding.md R203, R206). Every other term is well formed. -/
def Instr.wf : Instr → Bool
  | .nop _ => true
  | .run _ => true
  | .prep _ => true
  | .dither _ => true
  | .pack _ => true
  | .illegal op rsv0 _ rsv1 => decide (4 < op.toNat) || (rsv0 != 0#4) || (rsv1 != 0#16)

/-- `MAX_DOTS` is a multiple of 8 in 8..32760 (00_scope.md R10; 90_conflicts.md C6, C9). -/
def Platform.wf (p : Platform) : Bool :=
  decide (p.maxDots % 8 = 0) && decide (8 ≤ p.maxDots) && decide (p.maxDots ≤ 32760)

end Sys2Proof
end

