-- ==== Sys2Proof/Decode.lean ====
section
/-! DEFINITION. Decoding and encoding of command words: the one format `CMD32` (30_encoding.md R200-R207). -/

namespace Sys2Proof

/-- `OP`, bits [3:0] (30_encoding.md R200). -/
def opField (w : Word) : BitVec 4 := w.extractLsb' 0 4

/-- `RSV0`, bits [7:4] (30_encoding.md R200). -/
def rsv0Field (w : Word) : BitVec 4 := w.extractLsb' 4 4

/-- `TAG`, bits [15:8] (30_encoding.md R200). -/
def tagField (w : Word) : BitVec 8 := w.extractLsb' 8 8

/-- `RSV1`, bits [31:16] (30_encoding.md R200). -/
def rsv1Field (w : Word) : BitVec 16 := w.extractLsb' 16 16

/-- The command with a given `OP` when the reserved fields are 0 (30_encoding.md R201); none for the
reserved `OP` values 0x5..0xF. -/
def legalCommand (op : BitVec 4) (tag : BitVec 8) : Option Instr :=
  match op.toNat with
  | 0 => some (.nop tag)
  | 1 => some (.run tag)
  | 2 => some (.prep tag)
  | 3 => some (.dither tag)
  | 4 => some (.pack tag)
  | _ => none

/-- The command a 32-bit word is: a function of the word alone, defined on every word
(30_encoding.md R203). A word with a reserved `OP` or a nonzero reserved field is `illegal`, never a
neighbouring command (R206). -/
def decode (w : Word) : Instr :=
  let bad : Instr := .illegal (opField w) (rsv0Field w) (tagField w) (rsv1Field w)
  if rsv0Field w = 0#4 ∧ rsv1Field w = 0#16 then
    match legalCommand (opField w) (tagField w) with
    | some i => i
    | none => bad
  else bad

/-- The word of four fields: `RSV1`, `TAG`, `RSV0`, `OP` from bit 31 down (30_encoding.md R200). -/
def commandWord (op rsv0 : BitVec 4) (tag : BitVec 8) (rsv1 : BitVec 16) : Word :=
  rsv1 ++ tag ++ rsv0 ++ op

/-- The command word of an instruction (30_encoding.md R200, R201). -/
def encode : Instr → Word
  | .nop tag => commandWord 0#4 0#4 tag 0#16
  | .run tag => commandWord 1#4 0#4 tag 0#16
  | .prep tag => commandWord 2#4 0#4 tag 0#16
  | .dither tag => commandWord 3#4 0#4 tag 0#16
  | .pack tag => commandWord 4#4 0#4 tag 0#16
  | .illegal op rsv0 tag rsv1 => commandWord op rsv0 tag rsv1

/-- Why bits handed to the decoder are no command. -/
inductive DecodeError where
  /-- More than the one 32-bit word of a `CMD` write: there are no multi-word commands
  (30_encoding.md R207; log 26). Safe: nothing is executed. -/
  | notOneWord (nbits : Nat)
deriving DecidableEq, Repr

/-- The command in the low `nbits` bits of `w`, every higher bit of the word being 0; more bits than
one command word holds are rejected by name (30_encoding.md R207; log 26). -/
def decodeBits (nbits w : Nat) : Except DecodeError Instr :=
  if nbits ≤ 32 then .ok (decode (BitVec.ofNat 32 (w % 2 ^ nbits)))
  else .error (.notOneWord nbits)

/-- The decoder's answer on an instruction numbered as spec/opcode_table.json numbers its bits. -/
def decodeTableWord (nbits w : Nat) : Option Instr :=
  match decodeBits nbits w with
  | .ok i => some i
  | .error _ => none

end Sys2Proof
end

