-- ==== Sys2Proof/Machine/State.lean ====
section
/-! DEFINITION. The state of the machine: the engine's architectural state (10_state.md R52), system
memory, the platform, and what the host and `rst` do next. Everything is plain data. -/

namespace Sys2Proof.Machine

/-- One entry of the gamma LUT: its 16-bit value (10_state.md R80) and its "written since reset" flag
(70_reset_and_hazards.md R501). -/
structure LutEntry where
  value   : BitVec 16
  written : Bool
deriving DecidableEq, Repr

/-- One event the machine takes: the engine's turn, a host access, or `rst` (00_scope.md R7). -/
inductive Input where
  /-- The engine has the turn: it completes its job if it has one (40_commands.md R252). -/
  | engine
  /-- A host read of `size` bytes at an offset of the register window (20_memory.md R180). -/
  | regRead (size offset : Nat)
  /-- A host write of `size` bytes at an offset of the register window (20_memory.md R180). -/
  | regWrite (size offset : Nat) (v : Word)
  /-- A host read of one byte of system memory (20_memory.md R170). -/
  | memRead (a : Word)
  /-- A host write of one byte of system memory (20_memory.md R170). -/
  | memWrite (a : Word) (v : Byte)
  /-- The reset event (70_reset_and_hazards.md R500). -/
  | reset
  /-- A register access made during the reset step (70_reset_and_hazards.md R500;
  93_implementation_defined.md U11). -/
  | regDuringReset
deriving DecidableEq, Repr

/-- What a port answered to the host. -/
inductive Answer where
  | reg (offset : Nat) (v : Word)
  | mem (a : Word) (v : Byte)
deriving DecidableEq, Repr

/-- Why the machine stops with a fault. -/
inductive Fault where
  /-- Raised by RUN and PREP when a pixel looks up LUT entry `i`, not written since reset
  (41_preprocess.md R311, 70_reset_and_hazards.md R501, 93_implementation_defined.md U2). Safe: the
  hardware goes on with whatever the entry holds (log 4). -/
  | lutUnwritten (i : Nat)
deriving DecidableEq, Repr

/-- Why the machine does not take a step. -/
inductive Refusal where
  /-- Raised by an arm of `exec` whose instruction has no meaning yet; no arm is one. Safe. -/
  | notModelled (mnemonic : String)
  /-- Raised by a host write to the running job's read set, or any host access to its write set, while
  busy (20_memory.md R173, 93_implementation_defined.md U3). Safe (log 13). -/
  | hostRace (a : Word)
  /-- Raised by a register access that is not an aligned 32-bit access inside the window
  (20_memory.md R180, 93_implementation_defined.md U5). Safe (log 14). -/
  | badRegisterAccess (size offset : Nat)
  /-- Raised by a register access made during the reset step (70_reset_and_hazards.md R500,
  93_implementation_defined.md U11). Safe (log 15). -/
  | accessDuringReset
deriving DecidableEq, Repr

/-- The machine. Constants (`ID`, the Bayer ROM), views (`STATUS`, `CAP`, `irq`) and the storageless
`CMD` are no fields (10_state.md R52). -/
structure State where
  /-- `CTRL` (10_state.md R62). -/
  ctrl      : Word
  /-- `GEOM` (10_state.md R71). -/
  geom      : Word
  /-- `SRC_ADDR` (10_state.md R72). -/
  srcAddr   : Word
  /-- `SRC_STRIDE` (10_state.md R73). -/
  srcStride : Word
  /-- `DST_ADDR` (10_state.md R74). -/
  dstAddr   : Word
  /-- `STATUS.DONE` (10_state.md R76). -/
  done      : Bool
  /-- `STATUS.ERR` (10_state.md R76). -/
  err       : Bool
  /-- `STATUS.WIGN` (10_state.md R76). -/
  wign      : Bool
  /-- `STATUS.ERRCODE` (10_state.md R76, 60_exceptions.md R450). -/
  errcode   : BitVec 4
  /-- `STATUS.LAST_TAG` (10_state.md R76). -/
  lastTag   : BitVec 8
  /-- `OUT_LEN` (10_state.md R78). -/
  outLen    : Word
  /-- `FAULT_ADDR` (10_state.md R79). -/
  faultAddr : Word
  /-- The gamma LUT and its written flags (10_state.md R80, 70_reset_and_hazards.md R501). -/
  lut       : Vector LutEntry 256
  /-- The job latch: none when idle, the accepted command word while busy (10_state.md R91). -/
  job       : Option Word
  /-- The working field, alive only inside the dither stage (10_state.md R90; log 18). -/
  work      : Option (List (List Int))
  /-- System memory, in canonical form (20_memory.md R150, R170; log 1). -/
  mem       : List Host.Cell
  /-- The platform parameters; no step changes them (00_scope.md R10; log 16). -/
  plat      : Platform
  /-- The MODEL's own: what happens next, oldest first; when nothing is listed it is the engine's
  turn (40_commands.md R252; log 11). -/
  inputs    : List Input
  /-- The MODEL's own: what the ports answered to the host, newest first (log 23). -/
  answers   : List Answer
  /-- The MODEL's own: the argument of the next free value of Config (log 5). -/
  fresh     : Nat
deriving DecidableEq, Repr

/-- The machine right after reset, on the reference platform (70_reset_and_hazards.md R502). The
values the spec does not give are logs 1, 2, 5, 11, 16 and 23. -/
def State.reset : State where
  ctrl      := 0x00008000#32
  geom      := 0#32
  srcAddr   := 0#32
  srcStride := 0#32
  dstAddr   := 0#32
  done      := false
  err       := false
  wign      := false
  errcode   := 0#4
  lastTag   := 0#8
  outLen    := 0#32
  faultAddr := 0#32
  lut       := Vector.replicate 256 { value := 0#16, written := false }
  job       := none
  work      := none
  mem       := []
  plat      := Platform.reference
  inputs    := []
  answers   := []
  fresh     := 0

end Sys2Proof.Machine
end

