-- ==== Sys2Proof/Machine/Memory.lean ====
section
/-! DEFINITION. System memory: 2^32 bytes, read and written one byte at a time (20_memory.md R150, R156),
kept as the list of the bytes that differ from what an unlisted byte reads as. -/

namespace Sys2Proof.Machine

/-- System memory: (address, byte) pairs. -/
abbrev Memory := List Host.Cell

/-- What a byte that no entry lists reads as. DESIGN CHOICE (log 1): the spec fixes nothing of the
contents of system memory (20_memory.md R153). -/
def unlistedByte : Byte := 0x00#8

/-- The byte at an address. -/
def readByte : Memory → Nat → Byte
  | [], _ => unlistedByte
  | c :: rest, a => if c.1 = a then c.2 else readByte rest a

/-- Memory after one byte is written: the entry stands at its place in address order, and an entry
equal to what an unlisted byte reads as is not listed. -/
def writeByte : Memory → Nat → Byte → Memory
  | [], a, v => if v = unlistedByte then [] else [(a, v)]
  | c :: rest, a, v =>
    if c.1 < a then c :: writeByte rest a v
    else if c.1 = a then (if v = unlistedByte then rest else (a, v) :: rest)
    else if v = unlistedByte then c :: rest else (a, v) :: c :: rest

/-- Memory after a list of byte writes, in order. -/
def writeCells (m : Memory) (cells : List Host.Cell) : Memory :=
  cells.foldl (fun m c => writeByte m c.1 c.2) m

/-- The canonical form: addresses inside the address space and strictly rising, no entry equal to what
an unlisted byte reads as. -/
def Memory.wf : Memory → Bool
  | [] => true
  | c :: rest =>
    decide (c.1 < addressSpace) && (c.2 != unlistedByte) &&
      rest.all (fun d => decide (c.1 < d.1)) && Memory.wf rest

end Sys2Proof.Machine
end

