-- ==== Sys2Proof/Machine/Numeric.lean ====
section
/-! DEFINITION. The arithmetic primitives of the rules, on mathematical integers (00_scope.md R21, R22). -/

namespace Sys2Proof.Machine

/-- The field of luminance samples, rows top to bottom, in units of 1/256 level (00_scope.md R22, R23). -/
abbrev Field := List (List Int)

/-- A mono image, rows top to bottom, true = black (42_dither.md R350). -/
abbrev Bits := List (List Bool)

/-- `FULL`, level 255 in units (00_scope.md R22). -/
def full : Int := 65280

/-- `fdiv(a, b)`: floor of `a / b` (00_scope.md R21). -/
def fdiv (a b : Int) : Int := Int.fdiv a b

/-- `tdiv(a, b)`: `a / b` truncated toward zero (00_scope.md R21). -/
def tdiv (a b : Int) : Int := Int.tdiv a b

/-- `clamp(v, lo, hi)` (00_scope.md R21). -/
def clamp (v lo hi : Int) : Int := if v < lo then lo else if hi < v then hi else v

/-- `roundup8(n)` (00_scope.md R21). -/
def roundup8 (n : Nat) : Nat := 8 * ((n + 7) / 8)

/-- A system-memory address: the formed integer modulo 2^32 (20_memory.md R151). -/
def wrapAddr (n : Nat) : Nat := n % addressSpace

/-- The sample of row `y`, column `x` of a field; 0 outside it. -/
def sampleAt (F : Field) (x y : Nat) : Int := (F.getD y []).getD x 0

/-- The pixel of row `y`, column `x` of a mono image; white outside it. -/
def bitAt (B : Bits) (x y : Nat) : Bool := (B.getD y []).getD x false

/-- The `h` rows of `w` values that a function of the coordinates gives, row-major (00_scope.md R23). -/
def raster {α : Type} (w h : Nat) (f : Nat → Nat → α) : List (List α) :=
  (List.range h).map fun y => (List.range w).map fun x => f x y

end Sys2Proof.Machine
end

