-- ==== Sys2Proof/Machine/Operands.lean ====
section
/-! DEFINITION. The operands of a command: every field of the configuration registers
(30_encoding.md R204, R205), the geometry, and the bytes of memory a job reads and writes
(20_memory.md R160-R167). -/

namespace Sys2Proof.Machine

/-- The four dither modes (10_state.md R63). -/
inductive Mode where
  | floydSteinberg
  | atkinson
  | ordered8x8
  | flat
deriving DecidableEq, Repr

/-- The source pixel formats (10_state.md R67). -/
inductive InFmt where
  | y8
  | rgb888
  | rgba8888
  | reserved
deriving DecidableEq, Repr

/-- The commands that access memory (20_memory.md R150). -/
inductive JobKind where
  | run
  | prep
  | dither
  | pack
deriving DecidableEq, Repr

/-- Which kind of memory job a command is: none for NOP and for an illegal word (20_memory.md R164). -/
def jobKind : Instr → Option JobKind
  | .nop _ => none
  | .run _ => some .run
  | .prep _ => some .prep
  | .dither _ => some .dither
  | .pack _ => some .pack
  | .illegal _ _ _ _ => none

/-- `CTRL.MODE`, bits [1:0] (10_state.md R63). -/
def State.mode (s : State) : Mode :=
  match (s.ctrl.extractLsb' 0 2).toNat with
  | 0 => .floydSteinberg
  | 1 => .atkinson
  | 2 => .ordered8x8
  | _ => .flat

/-- `CTRL.INVERT`, bit 2 (10_state.md R64). -/
def State.invert (s : State) : Bool := s.ctrl.getLsbD 2

/-- `CTRL.SHARPEN`, bit 3 (10_state.md R65). -/
def State.sharpen (s : State) : Bool := s.ctrl.getLsbD 3

/-- `CTRL.FRAME`, bit 4 (10_state.md R66). -/
def State.frame (s : State) : Bool := s.ctrl.getLsbD 4

/-- `CTRL.INFMT`, bits [7:6] (10_state.md R67). -/
def State.infmt (s : State) : InFmt :=
  match (s.ctrl.extractLsb' 6 2).toNat with
  | 0 => .y8
  | 1 => .rgb888
  | 2 => .rgba8888
  | _ => .reserved

/-- `CTRL.THRESHOLD`, bits [15:8], an unsigned level 0..255 (10_state.md R68, 30_encoding.md R205). -/
def State.threshold (s : State) : Nat := (s.ctrl.extractLsb' 8 8).toNat

/-- `CTRL.IRQ_EN`, bit 16 (10_state.md R69). -/
def State.irqEn (s : State) : Bool := s.ctrl.getLsbD 16

/-- `W_src` = `GEOM.WIDTH`, bits [15:0] (10_state.md R71). -/
def State.srcWidth (s : State) : Nat := (s.geom.extractLsb' 0 16).toNat

/-- `H` = `GEOM.HEIGHT`, bits [31:16] (10_state.md R71). -/
def State.height (s : State) : Nat := (s.geom.extractLsb' 16 16).toNat

/-- `W` = `roundup8(W_src)`, the padded width (10_state.md R71). -/
def State.paddedWidth (s : State) : Nat := roundup8 s.srcWidth

/-- `bpl` = `W / 8` (43_pack.md R401). -/
def State.bytesPerLine (s : State) : Nat := s.paddedWidth / 8

/-- `bpp` of a source pixel format (20_memory.md R160); the reserved format has no pixel
(`BAD_FORMAT`, 10_state.md R67). -/
def InFmt.bytesPerPixel : InFmt → Nat
  | .y8 => 1
  | .rgb888 => 3
  | .rgba8888 => 4
  | .reserved => 0

/-- The bytes a job reads for each pixel: `bpp` for RUN and PREP (20_memory.md R161), a 16-bit sample
for DITHER (R162), one byte for PACK (R163). -/
def State.bytesRead (s : State) : JobKind → Nat
  | .run => s.infmt.bytesPerPixel
  | .prep => s.infmt.bytesPerPixel
  | .dither => 2
  | .pack => 1

/-- The address of byte `c` of source pixel `(x, y)` when a pixel has `bpp` bytes (20_memory.md R161,
R162, R163). -/
def State.srcByteAddr (s : State) (bpp x y c : Nat) : Nat :=
  wrapAddr (s.srcAddr.toNat + y * s.srcStride.toNat + x * bpp + c)

/-- Byte `c` of source pixel `(x, y)`, as a number. -/
def State.srcByte (s : State) (bpp x y c : Nat) : Nat :=
  (readByte s.mem (s.srcByteAddr bpp x y c)).toNat

/-- The read set of a job that passes the launch checks (20_memory.md R161-R164). -/
def State.readSet (s : State) (k : JobKind) : List Nat :=
  (List.range s.height).flatMap fun y =>
    (List.range s.srcWidth).flatMap fun x =>
      (List.range (s.bytesRead k)).map fun c => s.srcByteAddr (s.bytesRead k) x y c

/-- The length of the raster, framed or not (40_commands.md R256). -/
def State.rasterLength (s : State) : Nat :=
  s.bytesPerLine * s.height + (if s.frame then 19 else 0)

/-- `N`, the output length of a job that passes the launch checks (40_commands.md R256). -/
def State.outputLength (s : State) : JobKind → Nat
  | .run => s.rasterLength
  | .prep => 2 * s.paddedWidth * s.height
  | .dither => s.rasterLength
  | .pack => s.rasterLength

/-- The address of output byte `j` (20_memory.md R166). -/
def State.dstByteAddr (s : State) (j : Nat) : Nat := wrapAddr (s.dstAddr.toNat + j)

/-- The addresses of the first `n` output bytes, in order (20_memory.md R166). -/
def State.dstAddrs (s : State) (n : Nat) : List Nat := (List.range n).map s.dstByteAddr

/-- Whether an address is one of the first `n` output bytes (20_memory.md R166), by its distance
from `DST_ADDR` modulo 2^32. -/
def State.inDst (s : State) (n a : Nat) : Bool :=
  decide ((a + (addressSpace - s.dstAddr.toNat)) % addressSpace < n)

/-- `MemAdmit(addr, kind)` (20_memory.md R150): no range of the platform refuses the address. -/
def memAdmit (p : Platform) (k : AccessKind) (a : Nat) : Bool :=
  !p.refused.any fun r => (r.kind == k) && decide (r.first ≤ a) && decide (a ≤ r.last)

/-- `Bad`: the refused bytes of the read set and of the write set (60_exceptions.md R452). -/
def State.badAddrs (s : State) (k : JobKind) : List Nat :=
  (s.readSet k).filter (fun a => !memAdmit s.plat .read a) ++
    (s.dstAddrs (s.outputLength k)).filter (fun a => !memAdmit s.plat .write a)

/-- Whether a job's read set and write set share a byte (20_memory.md R174). -/
def State.overlaps (s : State) (k : JobKind) : Bool :=
  (s.readSet k).any (s.inDst (s.outputLength k))

/-- The entry of the gamma LUT for luminance `y`, if it was written since reset (41_preprocess.md R311). -/
def State.lutSample (s : State) (y : Nat) : Option Int :=
  match s.lut[y]? with
  | some e => if e.written then some (e.value.toNat : Int) else none
  | none => none

end Sys2Proof.Machine
end

