-- ==== Sys2Proof/Machine/Flags.lean ====
section
/-! DEFINITION. The status bits, the error codes and the interrupt line (10_state.md R76, R77;
60_exceptions.md R450, R460). The engine has no other flags (10_state.md R52). -/

namespace Sys2Proof.Machine

/-- The error codes a completion can report (60_exceptions.md R450). -/
inductive ErrCode where
  | illegalCmd
  | badFormat
  | badGeometry
  | busFault
deriving DecidableEq, Repr

/-- The code as `STATUS.ERRCODE` shows it (60_exceptions.md R450). -/
def ErrCode.bits : ErrCode → BitVec 4
  | .illegalCmd => 1#4
  | .badFormat => 2#4
  | .badGeometry => 3#4
  | .busFault => 4#4

/-- `STATUS.BUSY` (10_state.md R76, R91). -/
def State.busy (s : State) : Bool := s.job.isSome

/-- The 32-bit value of `STATUS` (10_state.md R76). -/
def State.statusWord (s : State) : Word :=
  0#16 ++ s.lastTag ++ s.errcode ++ BitVec.ofBool s.wign ++ BitVec.ofBool s.err ++
    BitVec.ofBool s.done ++ BitVec.ofBool s.busy

/-- `irq = CTRL.IRQ_EN and STATUS.DONE` (60_exceptions.md R460). -/
def State.irq (s : State) : Bool := s.irqEn && s.done

/-- What the interrupt-controller input `line` sees of the engine (60_exceptions.md R460, routing). -/
def State.irqOn (s : State) (line : Nat) : Bool := decide (line = Config.irqLine) && s.irq

/-- A host write to `STATUS`: `DONE`, `ERR` and `WIGN` are cleared where the value has a 1
(10_state.md R77). -/
def State.clearStatus (s : State) (v : Word) : State :=
  { s with
    done := s.done && !v.getLsbD 1
    err  := s.err && !v.getLsbD 2
    wign := s.wign && !v.getLsbD 3 }

/-- An ignored write: `WIGN` is set and nothing else changes (10_state.md R92, 40_commands.md R251). -/
def State.ignoreWrite (s : State) : State := { s with wign := true }

end Sys2Proof.Machine
end

