-- ==== Sys2Proof/Machine/Ops.lean ====
section
/-! DEFINITION. The life of a job (40_commands.md R250-R256): acceptance, launch checks, access check,
completion with or without an error. The engine takes no trap (60_exceptions.md R465): what stands
in the place of taking an exception is the one operation `State.retireError`, and there is no
return from one (R466). -/

namespace Sys2Proof.Machine

/-- Acceptance of a command word by an idle engine (40_commands.md R250). -/
def State.accept (s : State) (w : Word) : State :=
  { s with job := some w, done := false, err := false }

/-- The status a completion without error writes (40_commands.md R253): the job is over, and the working
field has no value any more (10_state.md R90). -/
def State.retireOk (s : State) (tag : BitVec 8) (len : Nat) : State :=
  { s with
    outLen := BitVec.ofNat 32 len, faultAddr := 0#32, errcode := 0#4, err := false
    lastTag := tag, done := true, job := none, work := none }

/-- `raise <Error>(info)`: the status a completion with an error writes (40_commands.md R253,
60_exceptions.md R450, R465). -/
def State.retireError (s : State) (tag : BitVec 8) (code : ErrCode) (info : Nat) : State :=
  { s with
    outLen := 0#32, faultAddr := BitVec.ofNat 32 info, errcode := code.bits, err := true
    lastTag := tag, done := true, job := none, work := none }

/-- The next `n` free bytes of the model (93_implementation_defined.md U4, U7, U10). -/
def freeBytes (first n : Nat) : List Byte := (List.range n).map fun j => Config.freeByte (first + j)

/-- Every one of the given addresses takes an unspecified byte; the model's counter moves past the
free values used (logs 5, 7, 8, 9). -/
def State.garble (s : State) (addrs : List Nat) : State :=
  { s with
    mem := writeCells s.mem (addrs.zip (freeBytes s.fresh addrs.length))
    fresh := s.fresh + addrs.length }

/-- The output bytes go to the first bytes from `DST_ADDR` on (40_commands.md R253, 20_memory.md R166). -/
def State.storeOutput (s : State) (out : List Byte) : State :=
  { s with mem := writeCells s.mem ((s.dstAddrs out.length).zip out) }

/-- The launch checks on the registers, in the order of 40_commands.md R254; the check of the command
word is the decoder's `illegal`. -/
def State.launchError (s : State) (k : JobKind) : Option ErrCode :=
  if (k = .run ∨ k = .prep) ∧ s.infmt = .reserved then some .badFormat
  else if s.srcWidth = 0 ∨ s.plat.maxDots < s.srcWidth ∨ s.height = 0 then some .badGeometry
  else none

/-- The completion of a job that met a refused byte: one element of `Bad` is reported
(60_exceptions.md R452, free choice), and every admitted byte of the write set takes an
unspecified value (R453). -/
def State.retireBusFault (s : State) (k : JobKind) (tag : BitVec 8) : State :=
  let bad := s.badAddrs k
  let info := bad.getD (Config.freePick s.fresh % bad.length) 0
  let admitted := (s.dstAddrs (s.outputLength k)).filter fun a => memAdmit s.plat .write a
  (({ s with fresh := s.fresh + 1 } : State).garble admitted).retireError tag .busFault info

/-- The completion of a job that computed its output: the bytes are stored, unless the read set and
the write set share a byte, when every byte of the write set is unspecified (20_memory.md R174). -/
def State.retireOutput (s : State) (k : JobKind) (tag : BitVec 8) (out : List Byte) : State :=
  if s.overlaps k then (s.garble (s.dstAddrs out.length)).retireOk tag out.length
  else (s.storeOutput out).retireOk tag out.length

/-- One job that accesses memory: launch checks (40_commands.md R254), access check (R255), then the
output of its stages from the bytes of the read set, and the completion (R253). The stages answer
the state (with the working field they leave) and the output bytes, or the model fault of
41_preprocess.md R311. -/
def performJob (k : JobKind) (tag : BitVec 8) (stages : State → Except Fault (State × List Byte))
    (s : State) : Host.Outcome State Fault Refusal :=
  match s.launchError k with
  | some code => .next (s.retireError tag code 0)
  | none =>
    if s.badAddrs k ≠ [] then .next (s.retireBusFault k tag)
    else
      match stages s with
      | .error f => .fault f
      | .ok (s₁, out) => .next (s₁.retireOutput k tag out)

/-- The read set of the job a command word starts: empty for NOP, an illegal word and a launch error
(20_memory.md R164). -/
def State.jobReads (s : State) (w : Word) : List Nat :=
  match jobKind (decode w) with
  | none => []
  | some k => if (s.launchError k).isSome then [] else s.readSet k

/-- The number of bytes in the write set of the job a command word starts (20_memory.md R166). -/
def State.jobWriteLength (s : State) (w : Word) : Nat :=
  match jobKind (decode w) with
  | none => 0
  | some k => if (s.launchError k).isSome then 0 else s.outputLength k

end Sys2Proof.Machine
end

