-- ==== Sys2Proof/Machine/Preprocess.lean ====
section
/-! DEFINITION. The pre-processing pipeline: luminance, padding, gamma LUT, sharpening
(41_preprocess.md R300-R322). -/

namespace Sys2Proof.Machine

/-- `luma` of a colour pixel: the weighted sum in thousandths, rounded half up once
(41_preprocess.md R303). -/
def lumaRGB (r g b : Nat) : Nat := (299 * r + 587 * g + 114 * b + 500) / 1000

/-- The luminance of source pixel `(x, y)` in the format of `CTRL.INFMT` (41_preprocess.md R303, R304;
the alpha byte is ignored, 20_memory.md R160). No job reaches the reserved format
(`BAD_FORMAT`, 10_state.md R67). -/
def State.luma (s : State) (x y : Nat) : Nat :=
  let byte := s.srcByte s.infmt.bytesPerPixel x y
  match s.infmt with
  | .y8 => byte 0
  | .rgb888 => lumaRGB (byte 0) (byte 1) (byte 2)
  | .rgba8888 => lumaRGB (byte 0) (byte 1) (byte 2)
  | .reserved => 0

/-- `Y[y][x]`: the luminance, 255 in the padding columns, which are not read (41_preprocess.md R300, R305). -/
def State.lumaField (s : State) : List (List Nat) :=
  raster s.paddedWidth s.height fun x y => if x < s.srcWidth then s.luma x y else 255

/-- The first luminance, row-major, whose LUT entry was not written since reset (41_preprocess.md R311). -/
def State.firstUnwritten (s : State) (Y : List (List Nat)) : Option Nat :=
  Y.flatten.find? fun y => (s.lutSample y).isNone

/-- `A[y][x] = LUT[Y[y][x]]` (41_preprocess.md R311); used when every entry looked up is written. -/
def State.gammaField (s : State) (Y : List (List Nat)) : Field :=
  Y.map fun row => row.map fun y => (s.lutSample y).getD 0

/-- The coordinates within 1 of `k` that lie in `0..n-1` (41_preprocess.md R320). -/
def window (k n : Nat) : List Nat :=
  (if k = 0 then [] else [k - 1]) ++ [k] ++ (if k + 1 < n then [k + 1] else [])

/-- The unsharp mask at one pixel: `n` neighbours inside the image, their sum `S`, the result rounded
half up once and clamped (41_preprocess.md R320). -/
def sharpenAt (w h : Nat) (A : Field) (x y : Nat) : Int :=
  let near := (window y h).flatMap fun j => (window x w).map fun i => sampleAt A i j
  let n : Int := near.length
  clamp (fdiv (3 * n * sampleAt A x y - near.sum + n) (2 * n)) 0 full

/-- `sharpen(A)`, out of place (41_preprocess.md R320). -/
def sharpenField (w h : Nat) (A : Field) : Field := raster w h (sharpenAt w h A)

/-- `prepare(INFMT, SHARPEN, source)` (41_preprocess.md R300), or the model fault of a lookup of an
unwritten LUT entry (R311). -/
def State.prepare (s : State) : Except Fault Field :=
  let Y := s.lumaField
  match s.firstUnwritten Y with
  | some y => .error (.lutUnwritten y)
  | none =>
    let A := s.gammaField Y
    .ok (if s.sharpen then sharpenField s.paddedWidth s.height A else A)

/-- A 16-bit sample as two bytes, low byte first (20_memory.md R155, R167). -/
def sampleBytes (v : Int) : List Byte :=
  [BitVec.ofInt 8 v, BitVec.ofInt 8 (v / 256)]

/-- PREP's output: every sample of the field, row-major (20_memory.md R167, 40_commands.md R275). -/
def fieldBytes (G : Field) : List Byte := G.flatMap fun row => row.flatMap sampleBytes

end Sys2Proof.Machine
end

