-- ==== Sys2Proof/Machine/Dither.lean ====
section
/-! DEFINITION. The dithering engine: threshold selector, error diffusion, ordered and flat comparators,
invert stage (42_dither.md R350-R372). -/

namespace Sys2Proof.Machine

/-- What a body reads besides the working field: the mode, the threshold level, the invert flag and
the size of the field (42_dither.md R350). -/
structure DitherCfg where
  mode      : Mode
  threshold : Nat
  invert    : Bool
  w         : Nat
  h         : Nat
deriving DecidableEq, Repr

/-- The configuration of a job's dither stage (30_encoding.md R204). -/
def State.ditherCfg (s : State) : DitherCfg :=
  { mode := s.mode, threshold := s.threshold, invert := s.invert
    w := s.paddedWidth, h := s.height }

/-- One row of the Bayer ROM after the other (10_state.md R83). -/
def bayerRom : List Nat :=
  [ 0, 32,  8, 40,  2, 34, 10, 42] ++
  [48, 16, 56, 24, 50, 18, 58, 26] ++
  [12, 44,  4, 36, 14, 46,  6, 38] ++
  [60, 28, 52, 20, 62, 30, 54, 22] ++
  [ 3, 35, 11, 43,  1, 33,  9, 41] ++
  [51, 19, 59, 27, 49, 17, 57, 25] ++
  [15, 47,  7, 39, 13, 45,  5, 37] ++
  [63, 31, 55, 23, 61, 29, 53, 21]

/-- `BAYER[r][c]` (10_state.md R83). -/
def bayer (r c : Nat) : Nat := bayerRom.getD (8 * r + c) 0

/-- A level as units (00_scope.md R22). -/
def levelUnits (level : Nat) : Int := (level : Int) * 256

/-- `black` of the quantiser: strictly below the threshold (42_dither.md R353). -/
def quantBlack (threshold : Nat) (v : Int) : Bool := decide (v < levelUnits threshold)

/-- `e = v - nv`, the quantisation error, with `nv` 0 for black and `FULL` for white (42_dither.md R353). -/
def quantError (threshold : Nat) (v : Int) : Int :=
  if quantBlack threshold v then v else v - full

/-- The field with `d` added at column `x` of row `y`. -/
def addSample (F : Field) (x y : Nat) (d : Int) : Field :=
  F.modify y fun row => row.modify x fun v => v + d

/-- One contribution `d` to the target `(x + dx, y + dy)`, skipped when the target lies outside the
field; nothing wraps and nothing is redistributed (42_dither.md R355, R360). -/
def diffuseOne (w h x y : Nat) (F : Field) (share : Int × Nat × Int) : Field :=
  let tx : Int := (x : Int) + share.1
  let ty := y + share.2.1
  if 0 ≤ tx ∧ tx < (w : Int) ∧ ty < h then addSample F tx.toNat ty share.2.2 else F

/-- The contributions of one pixel, each (dx, dy, amount), in the order of the rule. -/
def diffuse (w h x y : Nat) (F : Field) (shares : List (Int × Nat × Int)) : Field :=
  shares.foldl (diffuseOne w h x y) F

/-- The four contributions of FloydSteinberg (42_dither.md R355). -/
def floydShares (e : Int) : List (Int × Nat × Int) :=
  [(1, 0, tdiv (7 * e) 16), (-1, 1, tdiv (3 * e) 16), (0, 1, tdiv (5 * e) 16), (1, 1, tdiv (1 * e) 16)]

/-- The six contributions of Atkinson, one share computed once (42_dither.md R360). -/
def atkinsonShares (e : Int) : List (Int × Nat × Int) :=
  let a := tdiv e 8
  [(1, 0, a), (2, 0, a), (-1, 1, a), (0, 1, a), (1, 1, a), (0, 2, a)]

/-- `black` of Ordered8x8 (42_dither.md R364). -/
def orderedBlack (threshold x y : Nat) (v : Int) : Bool :=
  let thr := levelUnits (4 * bayer (y % 8) (x % 8) + 2)
  let offset := (128 - (threshold : Int)) * 256
  decide (clamp (v + offset) 0 full < thr)

/-- `black` of None (42_dither.md R367). -/
def flatBlack (threshold : Nat) (v : Int) : Bool := decide (v < levelUnits threshold)

/-- The mode's decision at a pixel, before the invert stage (42_dither.md R352). -/
def decision (cfg : DitherCfg) (x y : Nat) (v : Int) : Bool :=
  match cfg.mode with
  | .floydSteinberg => quantBlack cfg.threshold v
  | .atkinson => quantBlack cfg.threshold v
  | .ordered8x8 => orderedBlack cfg.threshold x y v
  | .flat => flatBlack cfg.threshold v

/-- What the mode adds to cells not yet visited; the error is not clamped and does not depend on
`INVERT` (42_dither.md R363, R368). Ordered8x8 and None write nothing (R364, R367). -/
def spread (cfg : DitherCfg) (v : Int) : List (Int × Nat × Int) :=
  match cfg.mode with
  | .floydSteinberg => floydShares (quantError cfg.threshold v)
  | .atkinson => atkinsonShares (quantError cfg.threshold v)
  | .ordered8x8 => []
  | .flat => []

/-- The body executed at pixel `(x, y)`: it reads the working field, adds to later cells, and gives the
output bit `black xor INVERT` (42_dither.md R351, R368). -/
def ditherBody (cfg : DitherCfg) (x y : Nat) (F : Field) : Field × Bool :=
  let v := sampleAt F x y
  (diffuse cfg.w cfg.h x y F (spread cfg v), (decision cfg x y v).xor cfg.invert)

/-- The scan of the given columns of row `y`, left to right (42_dither.md R351). -/
def scanRow (cfg : DitherCfg) (y : Nat) : List Nat → Field → Field × List Bool
  | [], F => (F, [])
  | x :: xs, F =>
    let here := ditherBody cfg x y F
    let rest := scanRow cfg y xs here.1
    (rest.1, here.2 :: rest.2)

/-- The scan of the given rows, top to bottom (42_dither.md R351). -/
def scanRows (cfg : DitherCfg) : List Nat → Field → Field × Bits
  | [], F => (F, [])
  | y :: ys, F =>
    let here := scanRow cfg y (List.range cfg.w) F
    let rest := scanRows cfg ys here.1
    (rest.1, here.2 :: rest.2)

/-- The whole scan of a working field: the field it leaves and the bits (42_dither.md R351). -/
def scanField (cfg : DitherCfg) (F : Field) : Field × Bits := scanRows cfg (List.range cfg.h) F

/-- `dither(MODE, THRESHOLD, INVERT, G)`: the bits of a field (42_dither.md R350). -/
def ditherBits (cfg : DitherCfg) (G : Field) : Bits := (scanField cfg G).2

/-- The dither stage of a job: `G` is copied into the working field, the scan runs over it, and the bits
go on to the packer (42_dither.md R350, 10_state.md R90). -/
def State.ditherStage (s : State) (G : Field) : State × Bits :=
  let filled : State := { s with work := some G }
  let scan := scanField s.ditherCfg (filled.work.getD [])
  ({ filled with work := some scan.1 }, scan.2)

/-- The field of a DITHER job: 16-bit little-endian samples clamped to `FULL`, and `FULL` in the padding
columns, which are not read (20_memory.md R162, 42_dither.md R350). -/
def State.sampleField (s : State) : Field :=
  raster s.paddedWidth s.height fun x y =>
    if x < s.srcWidth then
      min (((s.srcByte 2 x y 0 + 256 * s.srcByte 2 x y 1 : Nat) : Int)) full
    else full

end Sys2Proof.Machine
end

