-- ==== Sys2Proof/Machine/Pack.lean ====
section
/-! DEFINITION. The raster byte-packer and the printer framing (43_pack.md R400-R413). -/

namespace Sys2Proof.Machine

/-- Byte `b` of a packed row: pixel `8b + i` is bit `7 - i`, black is 1 (43_pack.md R400, R402). -/
def packByte (row : List Bool) (b : Nat) : Byte :=
  (List.range 8).foldl
    (fun acc i => if row.getD (8 * b + i) false then acc ||| (1#8 <<< (7 - i)) else acc) 0#8

/-- `pack(B)`, rows top to bottom, bytes left to right (43_pack.md R402). -/
def packBits (bpl : Nat) (B : Bits) : List Byte :=
  B.flatMap fun row => (List.range bpl).map (packByte row)

/-- The 13 bytes before the raster (43_pack.md R410). -/
def frameHeader (bpl h : Nat) : List Byte :=
  [0x1B#8, 0x40#8, 0x1B#8, 0x61#8, 0x01#8, 0x1D#8, 0x76#8, 0x30#8, 0x00#8] ++
  [BitVec.ofNat 8 (bpl % 256), BitVec.ofNat 8 (bpl / 256), BitVec.ofNat 8 (h % 256),
    BitVec.ofNat 8 (h / 256)]

/-- The 6 bytes after the raster: the feed command, twice (43_pack.md R410). -/
def frameTrailer : List Byte := [0x1B#8, 0x64#8, 0x02#8, 0x1B#8, 0x64#8, 0x02#8]

/-- `frame(ras, bpl, H)` (43_pack.md R410). -/
def frameRaster (ras : List Byte) (bpl h : Nat) : List Byte := frameHeader bpl h ++ ras ++ frameTrailer

/-- The output of a job that ends in bits: the raster, framed when `CTRL.FRAME` = 1
(40_commands.md R270, R280, R285). -/
def State.rasterOutput (s : State) (B : Bits) : List Byte :=
  let ras := packBits s.bytesPerLine B
  if s.frame then frameRaster ras s.bytesPerLine s.height else ras

/-- PACK's mono image: a nonzero byte is black, the padding columns are white and not read
(20_memory.md R163, 43_pack.md R403). -/
def State.monoBits (s : State) : Bits :=
  raster s.paddedWidth s.height fun x y => decide (x < s.srcWidth) && decide (s.srcByte 1 x y 0 ≠ 0)

end Sys2Proof.Machine
end

