-- ==== Sys2Proof/Machine/Commands.lean ====
section
/-! DEFINITION. The meaning of every command: its one completion step (40_commands.md R253-R290). -/

namespace Sys2Proof.Machine

/-- RUN's stages: `prepare`, `dither`, `pack`, `frame` (40_commands.md R270). -/
def runStages (s : State) : Except Fault (State × List Byte) :=
  match s.prepare with
  | .error f => .error f
  | .ok G =>
    let dithered := s.ditherStage G
    .ok (dithered.1, dithered.1.rasterOutput dithered.2)

/-- PREP's stages: `prepare`, then the samples as bytes (40_commands.md R275). -/
def prepStages (s : State) : Except Fault (State × List Byte) :=
  match s.prepare with
  | .error f => .error f
  | .ok G => .ok (s, fieldBytes G)

/-- DITHER's stages: `dither`, `pack`, `frame` on the field in memory (40_commands.md R280). -/
def ditherStages (s : State) : Except Fault (State × List Byte) :=
  let dithered := s.ditherStage s.sampleField
  .ok (dithered.1, dithered.1.rasterOutput dithered.2)

/-- PACK's stages: `pack`, `frame` on the mono image in memory (40_commands.md R285). -/
def packStages (s : State) : Except Fault (State × List Byte) := .ok (s, s.rasterOutput s.monoBits)

/-- `NOP` (40_commands.md R260). -/
def execNop (tag : BitVec 8) (s : State) : Host.Outcome State Fault Refusal :=
  .next (s.retireOk tag 0)

/-- `RUN` (40_commands.md R270). -/
def execRun (tag : BitVec 8) (s : State) : Host.Outcome State Fault Refusal :=
  performJob .run tag runStages s

/-- `PREP` (40_commands.md R275). -/
def execPrep (tag : BitVec 8) (s : State) : Host.Outcome State Fault Refusal :=
  performJob .prep tag prepStages s

/-- `DITHER` (40_commands.md R280). -/
def execDither (tag : BitVec 8) (s : State) : Host.Outcome State Fault Refusal :=
  performJob .dither tag ditherStages s

/-- `PACK` (40_commands.md R285). -/
def execPack (tag : BitVec 8) (s : State) : Host.Outcome State Fault Refusal :=
  performJob .pack tag packStages s

/-- Every reserved or illegal word raises `ILLEGAL_CMD(0)` and touches no memory (40_commands.md R290). -/
def execIllegal (tag : BitVec 8) (s : State) : Host.Outcome State Fault Refusal :=
  .next (s.retireError tag .illegalCmd 0)

end Sys2Proof.Machine
end

