-- ==== Sys2Proof/Machine/Dispatch.lean ====
section
/-! DEFINITION. One arm per command, each one direct call of its meaning. -/

namespace Sys2Proof.Machine

def exec (i : Instr) (s : State) : Host.Outcome State Fault Refusal :=
  match i with
  | .nop tag => Sys2Proof.Machine.execNop tag s
  | .run tag => Sys2Proof.Machine.execRun tag s
  | .prep tag => Sys2Proof.Machine.execPrep tag s
  | .dither tag => Sys2Proof.Machine.execDither tag s
  | .pack tag => Sys2Proof.Machine.execPack tag s
  | .illegal _ _ tag _ => Sys2Proof.Machine.execIllegal tag s

end Sys2Proof.Machine
end

