-- ==== Sys2Proof/Machine/HostPort.lean ====
section
/-! DEFINITION. What the outside does to the machine: host accesses to the register window
(10_state.md R55-R92) and to system memory (20_memory.md R173), and reset
(70_reset_and_hazards.md R500-R502). -/

namespace Sys2Proof.Machine

/-- The places of the register window (10_state.md R55). -/
inductive Reg where
  | id
  | cap
  | ctrl
  | geom
  | srcAddr
  | srcStride
  | dstAddr
  | cmd
  | status
  | outLen
  | faultAddr
  | lut (i : Fin 256)
  | bayer (k : Fin 64)
  | reserved
deriving DecidableEq, Repr

/-- The place at the offset `4 n` of the window (10_state.md R55). -/
def regOfIndex (n : Nat) : Reg :=
  if h : 0x100 ≤ n ∧ n < 0x200 then .lut ⟨n - 0x100, by omega⟩
  else if h : 0x200 ≤ n ∧ n < 0x240 then .bayer ⟨n - 0x200, by omega⟩
  else
    match n with
    | 0 => .id
    | 1 => .cap
    | 2 => .ctrl
    | 3 => .geom
    | 4 => .srcAddr
    | 5 => .srcStride
    | 6 => .dstAddr
    | 7 => .cmd
    | 8 => .status
    | 9 => .outLen
    | 10 => .faultAddr
    | _ => .reserved

/-- The place at an offset of the window (10_state.md R55). -/
def regAt (offset : Nat) : Reg := regOfIndex (offset / 4)

/-- Whether a register access is one the port defines: 32 bits, at a multiple of 4 in 0x000..0xFFC
(20_memory.md R180). -/
def regAccessOk (size offset : Nat) : Bool :=
  decide (size = 4) && decide (offset % 4 = 0) && decide (offset ≤ 0xFFC)

/-- Where an offset of the window sits in the host's map (20_memory.md R153; log 17). -/
def regAddress (offset : Nat) : Word := Config.regBase + BitVec.ofNat 32 offset

/-- `ID` (10_state.md R60). -/
def idWord : Word := 0x44544801#32

/-- `CAP`: `MAX_DOTS` in [15:0], 0 above (10_state.md R61). -/
def State.capWord (s : State) : Word := 0#16 ++ BitVec.ofNat 16 s.plat.maxDots

/-- The bits of `CTRL` that are stored: [4:0], [15:6] and [16] (10_state.md R62, R70). -/
def ctrlMask : Word := 0x0001FFDF#32

/-- What a host read of a place returns (10_state.md R55-R84). An unwritten LUT entry gives a free value
in [15:0] and 0 above (R82; log 3). -/
def State.regValue (s : State) : Reg → Word
  | .id => idWord
  | .cap => s.capWord
  | .ctrl => s.ctrl
  | .geom => s.geom
  | .srcAddr => s.srcAddr
  | .srcStride => s.srcStride
  | .dstAddr => s.dstAddr
  | .cmd => 0#32
  | .status => s.statusWord
  | .outLen => s.outLen
  | .faultAddr => s.faultAddr
  | .lut i =>
    let e := s.lut[i.val]'i.isLt
    0#16 ++ (if e.written then e.value else Config.freeLutRead s.fresh)
  | .bayer k => BitVec.ofNat 32 (bayer (k.val / 8) (k.val % 8))
  | .reserved => 0#32

/-- How many free values of the model a read of a place uses (log 5). -/
def State.freshUsedBy (s : State) : Reg → Nat
  | .lut i => if (s.lut[i.val]'i.isLt).written then 0 else 1
  | _ => 0

/-- The data a port gives the host (log 23). -/
def State.answer (s : State) (a : Answer) : State := { s with answers := a :: s.answers }

/-- A host read of a register: it answers and changes nothing of the engine (20_memory.md R181, R182). -/
def State.readReg (s : State) (offset : Nat) : State :=
  ({ s with fresh := s.fresh + s.freshUsedBy (regAt offset) } : State).answer
    (.reg offset (s.regValue (regAt offset)))

/-- What a LUT write stores: `min(v[15:0], FULL)`, silently (10_state.md R81). -/
def lutStored (v : Word) : BitVec 16 :=
  if 65280 < (v.extractLsb' 0 16).toNat then 65280#16 else v.extractLsb' 0 16

/-- `CTRL` written: the reserved bits are not stored (10_state.md R62, R70). -/
def State.setCtrl (s : State) (v : Word) : State := { s with ctrl := v &&& ctrlMask }

/-- `GEOM` written: all bits stored (10_state.md R71). -/
def State.setGeom (s : State) (v : Word) : State := { s with geom := v }

/-- `SRC_ADDR` written: all bits stored (10_state.md R72). -/
def State.setSrcAddr (s : State) (v : Word) : State := { s with srcAddr := v }

/-- `SRC_STRIDE` written: all bits stored (10_state.md R73). -/
def State.setSrcStride (s : State) (v : Word) : State := { s with srcStride := v }

/-- `DST_ADDR` written: all bits stored (10_state.md R74). -/
def State.setDstAddr (s : State) (v : Word) : State := { s with dstAddr := v }

/-- A LUT entry written by the host (10_state.md R81, 70_reset_and_hazards.md R501). -/
def State.setLut (s : State) (i : Fin 256) (v : Word) : State :=
  { s with lut := s.lut.set i.val { value := lutStored v, written := true } i.isLt }

/-- A write to a configuration register or a LUT entry: ignored with `WIGN` set while busy
(10_state.md R92), else the given update. -/
def State.whenIdle (s : State) (update : State → State) : State :=
  if s.busy then s.ignoreWrite else update s

/-- A host write to a place of the window (10_state.md R55-R92, 40_commands.md R250, R251). -/
def State.writeReg (s : State) (r : Reg) (v : Word) : State :=
  match r with
  | .id => s
  | .cap => s
  | .ctrl => s.whenIdle fun t => t.setCtrl v
  | .geom => s.whenIdle fun t => t.setGeom v
  | .srcAddr => s.whenIdle fun t => t.setSrcAddr v
  | .srcStride => s.whenIdle fun t => t.setSrcStride v
  | .dstAddr => s.whenIdle fun t => t.setDstAddr v
  | .cmd => s.whenIdle fun t => t.accept v
  | .status => s.clearStatus v
  | .outLen => s
  | .faultAddr => s
  | .lut i => s.whenIdle fun t => t.setLut i v
  | .bayer _ => s
  | .reserved => s

/-- Whether a host access of one kind to an address races the running job: a write to its read set, or
any access to its write set (20_memory.md R173). -/
def State.races (s : State) (k : AccessKind) (a : Nat) : Bool :=
  match s.job with
  | none => false
  | some w => s.inDst (s.jobWriteLength w) a || (decide (k = .write) && (s.jobReads w).contains a)

/-- A host register read (20_memory.md R180). -/
def hostRegRead (size offset : Nat) (s : State) : Host.Outcome State Fault Refusal :=
  if regAccessOk size offset then .next (s.readReg offset)
  else .refused (.badRegisterAccess size offset)

/-- A host register write (20_memory.md R180). -/
def hostRegWrite (size offset : Nat) (v : Word) (s : State) : Host.Outcome State Fault Refusal :=
  if regAccessOk size offset then .next (s.writeReg (regAt offset) v)
  else .refused (.badRegisterAccess size offset)

/-- A host read of one byte of system memory, refused when it races the job (20_memory.md R173). -/
def hostMemRead (a : Word) (s : State) : Host.Outcome State Fault Refusal :=
  if s.races .read a.toNat then .refused (.hostRace a)
  else .next (s.answer (.mem a (readByte s.mem a.toNat)))

/-- A host write of one byte of system memory, refused when it races the job (20_memory.md R173). -/
def hostMemWrite (a : Word) (v : Byte) (s : State) : Host.Outcome State Fault Refusal :=
  if s.races .write a.toNat then .refused (.hostRace a)
  else .next { s with mem := writeByte s.mem a.toNat v }

/-- The write set of the running job; empty when idle (20_memory.md R166). -/
def State.runningWrites (s : State) : List Nat :=
  match s.job with
  | none => []
  | some w => s.dstAddrs (s.jobWriteLength w)

/-- The reset event: every register at its reset value, the job abandoned, every byte of its write set
unspecified, every other byte of memory kept (70_reset_and_hazards.md R500-R502). -/
def State.resetEvent (s : State) : State :=
  let left := s.garble s.runningWrites
  { State.reset with
    mem := left.mem, plat := s.plat, inputs := s.inputs, answers := s.answers
    fresh := left.fresh }

end Sys2Proof.Machine
end

