-- ==== Sys2Proof/Machine/Turn.lean ====
section
/-! DEFINITION. Who moves next: the engine, the host or `rst` (00_scope.md R7, 40_commands.md R252). -/

namespace Sys2Proof.Machine

/-- The command in the job latch, decoded: the machine's fetch (10_state.md R51, R91). -/
def State.fetch (s : State) : Option Instr := s.job.map decode

/-- The engine's turn: a busy engine takes its one completion step (40_commands.md R252, R253); an idle
one keeps all of its state (60_exceptions.md R475). -/
def engineTurn (s : State) : Host.Outcome State Fault Refusal :=
  match s.fetch with
  | some i => exec i s
  | none => .next s

/-- One event of the outside, or the engine's turn. -/
def takeInput (e : Input) (s : State) : Host.Outcome State Fault Refusal :=
  match e with
  | .engine => engineTurn s
  | .regRead size offset => hostRegRead size offset s
  | .regWrite size offset v => hostRegWrite size offset v s
  | .memRead a => hostMemRead a s
  | .memWrite a v => hostMemWrite a v s
  | .reset => .next s.resetEvent
  | .regDuringReset => .refused .accessDuringReset

/-- A busy engine that is about to complete the command word `w` (log 12). -/
def State.latched (s : State) (w : Word) : State :=
  { s with job := some w, inputs := .engine :: s.inputs }

end Sys2Proof.Machine
end

