-- ==== Sys2Proof/Machine/Step.lean ====
section
/-! DEFINITION. One step of the machine. -/

namespace Sys2Proof.Machine

/-- One step: the oldest pending input is taken; when none is listed it is the engine's turn
(40_commands.md R252; log 11). -/
def step (s : State) : Host.Outcome State Fault Refusal :=
  match s.inputs with
  | [] => engineTurn s
  | e :: rest => takeInput e { s with inputs := rest }

/-- The state with a command placed where the engine takes its next one: in the job latch, with the
engine's turn next (10_state.md R51, R91; log 12). -/
def State.withFetchWord (s : State) (nbits w : Nat) : State :=
  s.latched (BitVec.ofNat 32 (w % 2 ^ nbits))

end Sys2Proof.Machine
end

