-- ==== Sys2Proof/Machine/Script.lean ====
section
/-! DEFINITION. The host script notation as lists of inputs (30_encoding.md R230, R231). -/

namespace Sys2Proof.Machine

/-- The window offset of a register, for the names a script uses (10_state.md R55). -/
def regOffset : Reg → Nat
  | .id => 0x000
  | .cap => 0x004
  | .ctrl => 0x008
  | .geom => 0x00C
  | .srcAddr => 0x010
  | .srcStride => 0x014
  | .dstAddr => 0x018
  | .cmd => 0x01C
  | .status => 0x020
  | .outLen => 0x024
  | .faultAddr => 0x028
  | .lut i => 0x400 + 4 * i.val
  | .bayer k => 0x800 + 4 * k.val
  | .reserved => 0xFFC

/-- `wr <REG>, <v>` (30_encoding.md R230). -/
def scriptWr (r : Reg) (v : Word) : List Input := [.regWrite 4 (regOffset r) v]

/-- `rd <REG>` (30_encoding.md R230). -/
def scriptRd (r : Reg) : List Input := [.regRead 4 (regOffset r)]

/-- `wrlut <i>, <v>` (30_encoding.md R230). -/
def scriptWrlut (i : Fin 256) (v : Word) : List Input := scriptWr (.lut i) v

/-- `mem <addr>: <b0> <b1> ...` (30_encoding.md R230). -/
def scriptMem : Word → List Byte → List Input
  | _, [] => []
  | a, b :: rest => .memWrite a b :: scriptMem (a + 1#32) rest

/-- `expect <addr>: <b0> <b1> ...`: the reads of `n` bytes (30_encoding.md R230). -/
def scriptExpect : Word → Nat → List Input
  | _, 0 => []
  | a, n + 1 => .memRead a :: scriptExpect (a + 1#32) n

/-- `cmd <MNEMONIC>, <tag>` (30_encoding.md R231). -/
def scriptCmd (i : Instr) : List Input := scriptWr .cmd (encode i)

/-- `wait` when the engine completes after `polls` reads of `STATUS` (30_encoding.md R231; log 25). -/
def scriptWait (polls : Nat) : List Input :=
  (List.replicate polls (scriptRd .status)).flatten ++ [.engine] ++ scriptRd .status

/-- `clr` (30_encoding.md R231). -/
def scriptClr : List Input := scriptWr .status 0x0000000E#32

/-- `wrlut i, curve i` for `i` = 0..255 in that order (30_encoding.md R231). -/
def scriptLut (curve : Nat → Nat) : List Input :=
  (List.finRange 256).flatMap fun i => scriptWrlut i (BitVec.ofNat 32 (curve i.val))

/-- `lutid` (30_encoding.md R231). -/
def scriptLutid : List Input := scriptLut fun i => 256 * i

/-- A gamma `p/q` clamped to [0.10, 1.50] (41_preprocess.md R312). -/
def clampGamma (p q : Nat) : Nat × Nat :=
  if 10 * p < q then (1, 10) else if 3 * q < 2 * p then (3, 2) else (p, q)

/-- Whether `65280 * (i / 255)^(q/p) + 1/2` is at least `k >= 1`, in whole numbers: both sides of
`(i / 255)^(q/p) >= (2k - 1) / 130560` raised to the power `p`. -/
def curveReaches (p q i k : Nat) : Bool := decide ((2 * k - 1) ^ p * 255 ^ q ≤ 130560 ^ p * i ^ q)

/-- `Gam(p/q, i)`, `q > 0`: the floor of the real-valued curve, its 16 bits found from the highest down
(41_preprocess.md R312; log 27). The engine never computes it. -/
def gam (p q i : Nat) : Nat :=
  let g := clampGamma p q
  (List.range 16).foldl
    (fun k j => if curveReaches g.1 g.2 i (k + 2 ^ (15 - j)) then k + 2 ^ (15 - j) else k) 0

/-- `lutgamma <p/q>` (30_encoding.md R231). -/
def scriptLutgamma (p q : Nat) : List Input := scriptLut (gam p q)

/-- The fields a `ctrl` line names (30_encoding.md R231). -/
structure CtrlFields where
  mode      : BitVec 2
  inv       : Bool := false
  sharp     : Bool := false
  frame     : Bool := false
  irq       : Bool := false
  fmt       : BitVec 2 := 0#2
  threshold : BitVec 8 := 128#8
deriving DecidableEq, Repr

/-- The `CTRL` value of the named fields (30_encoding.md R231, 10_state.md R62). -/
def ctrlWord (f : CtrlFields) : Word :=
  0#15 ++ BitVec.ofBool f.irq ++ f.threshold ++ f.fmt ++ 0#1 ++ BitVec.ofBool f.frame ++
    BitVec.ofBool f.sharp ++ BitVec.ofBool f.inv ++ f.mode

/-- `ctrl <MODE>, <fields...>` (30_encoding.md R231). -/
def scriptCtrl (f : CtrlFields) : List Input := scriptWr .ctrl (ctrlWord f)

/-- `geom <W_src>, <H>` (30_encoding.md R231). -/
def scriptGeom (w h : BitVec 16) : List Input := scriptWr .geom (h ++ w)

end Sys2Proof.Machine
end

