-- ==== Sys2Proof/Safety.lean ====
section
/-! DEFINITION. What a good state and a safe run are, in the terms the statements use. -/

namespace Sys2Proof.Machine

/-- The invariant of the machine: what holds at reset and after every step. -/
structure State.Inv (s : State) : Prop where
  /-- Memory is in canonical form (log 1). -/
  memCanonical : Memory.wf s.mem = true
  /-- The reserved bits of `CTRL` are not stored (10_state.md R70). -/
  ctrlReserved : s.ctrl &&& ~~~ctrlMask = 0#32
  /-- Every written LUT entry holds a level 0..255, 0..65280 units (10_state.md R81). -/
  lutRange : ∀ i : Fin 256, (s.lut[i.val]'i.isLt).written = true →
    (s.lut[i.val]'i.isLt).value.toNat ≤ 65280
  /-- `ERRCODE` 5..15 is never written (60_exceptions.md R450). -/
  errcodeKnown : s.errcode.toNat ≤ 4
  /-- `ERR` = 1 only when the last completion wrote a nonzero code (60_exceptions.md R450). -/
  errHasCode : s.err = true → s.errcode ≠ 0#4
  /-- While busy `DONE` and `ERR` are 0 (40_commands.md R250, 70_reset_and_hazards.md R516). -/
  busyPending : s.job ≠ none → s.done = false ∧ s.err = false
  /-- `OUT_LEN` is 0 after an error (10_state.md R78). -/
  errorWritesNoLength : s.errcode ≠ 0#4 → s.outLen = 0#32
  /-- `FAULT_ADDR` is 0 unless the last completion was a `BUS_FAULT` (10_state.md R79). -/
  faultAddrOfBusFault : s.errcode ≠ 4#4 → s.faultAddr = 0#32
  /-- Between steps the working field has no value (10_state.md R90). -/
  workGone : s.work = none
  /-- The platform is a legal one (00_scope.md R10). -/
  platLegal : s.plat.wf = true

/-- Every LUT entry was written since reset, as after `lutid` (70_reset_and_hazards.md R505, R514). -/
def State.lutFilled (s : State) : Bool := s.lut.toList.all fun e => e.written

/-- A job's registers pass the launch checks and no byte of its read and write sets is refused, so that
it succeeds (40_commands.md R254, R255). -/
def State.jobReady (s : State) (k : JobKind) : Bool :=
  (s.launchError k).isNone && (s.badAddrs k).isEmpty

/-- A run of `n` steps in which no fault and no refusal stops the machine. -/
def safeRun (s : State) (n : Nat) : Prop := ∃ t, Host.Core.run Sys2Proof.core n s = .next t

/-- The command that starts a memory job (30_encoding.md R201). -/
def commandOf : JobKind → BitVec 8 → Instr
  | .run, tag => .run tag
  | .prep, tag => .prep tag
  | .dither, tag => .dither tag
  | .pack, tag => .pack tag

/-- What no command changes: the configuration registers, the LUT, `WIGN`, the platform, and what the
outside does (30_encoding.md R204; 40_commands.md R253). -/
structure State.KeepsConfig (s t : State) : Prop where
  ctrl      : t.ctrl = s.ctrl
  geom      : t.geom = s.geom
  srcAddr   : t.srcAddr = s.srcAddr
  srcStride : t.srcStride = s.srcStride
  dstAddr   : t.dstAddr = s.dstAddr
  lut       : t.lut = s.lut
  wign      : t.wign = s.wign
  plat      : t.plat = s.plat
  inputs    : t.inputs = s.inputs
  answers   : t.answers = s.answers

/-- The status of a completion without error that wrote `n` bytes (40_commands.md R253): idle again, the
working field gone. -/
structure State.ReportsOk (t : State) (tag : BitVec 8) (n : Nat) : Prop where
  done      : t.done = true
  err       : t.err = false
  errcode   : t.errcode = 0#4
  lastTag   : t.lastTag = tag
  outLen    : t.outLen.toNat = n
  faultAddr : t.faultAddr = 0#32
  job       : t.job = none
  work      : t.work = none

/-- The status of a completion with an error (40_commands.md R253, 60_exceptions.md R450). -/
structure State.ReportsError (t : State) (tag : BitVec 8) (code : BitVec 4) : Prop where
  done    : t.done = true
  err     : t.err = true
  errcode : t.errcode = code
  lastTag : t.lastTag = tag
  outLen  : t.outLen = 0#32
  job     : t.job = none
  work    : t.work = none

/-- Where the raster starts in the output of a raster job (43_pack.md R410). -/
def State.rasterBase (s : State) : Nat := if s.frame then 13 else 0

/-- The memory of `t` holds, from the `DST_ADDR` of `s` on, the raster whose pixel `(x, y)` is
`bit x y`, and around it, when `CTRL.FRAME` = 1, the framing bytes (43_pack.md R400, R410). -/
structure State.HoldsRaster (s t : State) (bit : Nat → Nat → Bool) : Prop where
  pixels : ∀ x y, x < s.paddedWidth → y < s.height →
    (readByte t.mem (s.dstByteAddr (s.rasterBase + y * s.bytesPerLine + x / 8))).getLsbD (7 - x % 8) =
      bit x y
  header : s.frame = true → ∀ j, j < 13 →
    (readByte t.mem (s.dstByteAddr j)).toNat =
      [0x1B, 0x40, 0x1B, 0x61, 0x01, 0x1D, 0x76, 0x30, 0x00, s.bytesPerLine % 256,
        s.bytesPerLine / 256, s.height % 256, s.height / 256].getD j 0
  trailer : s.frame = true → ∀ j, j < 6 →
    (readByte t.mem (s.dstByteAddr (13 + s.bytesPerLine * s.height + j))).toNat =
      [0x1B, 0x64, 0x02, 0x1B, 0x64, 0x02].getD j 0

/-- The luminance whose LUT entry pixel `(x, y)` of the padded image looks up (41_preprocess.md R300). -/
def State.lookedUp (s : State) (x y : Nat) : Nat := if x < s.srcWidth then s.luma x y else 255

/-- Every LUT entry a RUN or PREP looks up was written since reset (41_preprocess.md R311). -/
def State.lookupsWritten (s : State) : Prop :=
  ∀ y, y < s.height → ∀ x, x < s.paddedWidth → (s.lutSample (s.lookedUp x y)).isSome = true

/-- The prepared field, pixel by pixel: `LUT[Y[y][x]]`, sharpened when `CTRL.SHARPEN` = 1
(41_preprocess.md R300). -/
def State.preparedField (s : State) : Field :=
  let A := raster s.paddedWidth s.height fun x y => (s.lutSample (s.lookedUp x y)).getD 0
  if s.sharpen then sharpenField s.paddedWidth s.height A else A

/-- The working values the bodies of one row read, in the order of the scan (42_dither.md R351). -/
def rowReads (cfg : DitherCfg) (y : Nat) : List Nat → Field → List Int
  | [], _ => []
  | x :: xs, F => sampleAt F x y :: rowReads cfg y xs (ditherBody cfg x y F).1

/-- The working values the bodies of a scan read, in order (42_dither.md R351). -/
def fieldReads (cfg : DitherCfg) : List Nat → Field → List Int
  | [], _ => []
  | y :: ys, F =>
    rowReads cfg y (List.range cfg.w) F ++ fieldReads cfg ys (scanRow cfg y (List.range cfg.w) F).1

/-- The working field when the bodies of the first `n` pixels in row-major order have run on `G`: pixel `i`
of that order is `(i mod W, i div W)` (00_scope.md R23, 42_dither.md R351). -/
def fieldBefore (cfg : DitherCfg) (G : Field) (n : Nat) : Field :=
  (List.range n).foldl (fun F i => (ditherBody cfg (i % cfg.w) (i / cfg.w) F).1) G

/-- `unpack`: pixel `(x, y)` is bit `7 - (x mod 8)` of byte `y * bpl + floor(x / 8)` (43_pack.md R405). -/
def unpackBits (bpl h : Nat) (ras : List Byte) : Bits :=
  raster (8 * bpl) h fun x y => (ras.getD (y * bpl + x / 8) 0#8).getLsbD (7 - x % 8)

/-- The sum of all samples of a field. -/
def fieldTotal (F : Field) : Int := (F.map List.sum).sum

/-- `h` rows of `w` samples, every sample a luminance 0..`FULL` (42_dither.md R350). -/
def preparedShape (w h : Nat) (G : Field) : Prop :=
  G.length = h ∧ (∀ row ∈ G, row.length = w) ∧ ∀ row ∈ G, ∀ v ∈ row, 0 ≤ v ∧ v ≤ 65280

end Sys2Proof.Machine
end

