-- ==== Sys2Proof/Certificates/Slice0/Obligations.lean ====
section
/-! DEFINITION. The statements for the provers, file by file of spec/. -/

open Sys2Proof Sys2Proof.Machine

/-! ## 30_encoding.md -/

/-- Decode and encode agree on every well-formed command (R200, R201). -/
def Obligations.DecodeOfEncode : Prop :=
  ∀ i : Instr, i.wf = true → decode (encode i) = i

/-- Every word is the word of the command it decodes to, and that command is well formed (R203, R206). -/
def Obligations.EncodeOfDecode : Prop :=
  ∀ w : Word, encode (decode w) = w ∧ (decode w).wf = true

/-- A word is legal, decodes to one of the five commands, iff `OP <= 4` and both reserved fields are 0;
an idle engine accepts every word; an illegal one completes with `ILLEGAL_CMD` and no memory access
(R203). -/
def Obligations.LegalWordIffFieldsLegal : Prop :=
  (∀ w : Word,
    (∃ tag, decode w = .nop tag ∨ decode w = .run tag ∨ decode w = .prep tag ∨
      decode w = .dither tag ∨ decode w = .pack tag) ↔
    (w.toNat % 16 ≤ 4 ∧ w.toNat / 16 % 16 = 0 ∧ w.toNat / 65536 = 0)) ∧
  (∀ (w : Word) (s : State), s.job = none →
    ∃ t, hostRegWrite 4 0x01C w s = .next t ∧ t.job = some w) ∧
  (∀ (w : Word) (s : State),
    ¬ (w.toNat % 16 ≤ 4 ∧ w.toNat / 16 % 16 = 0 ∧ w.toNat / 65536 = 0) →
    ∃ t, exec (decode w) s = .next t ∧ t.errcode = 1#4 ∧ t.mem = s.mem)

/-- The example words of R232, as scripts, as commands and as `CTRL` values. -/
def Obligations.ExampleEncodings : Prop :=
  scriptCmd (.nop 0#8) = [.regWrite 4 0x01C 0x00000000#32] ∧
  scriptCmd (.run 7#8) = [.regWrite 4 0x01C 0x00000701#32] ∧
  scriptCmd (.prep 0x10#8) = [.regWrite 4 0x01C 0x00001002#32] ∧
  scriptCmd (.dither 0xFF#8) = [.regWrite 4 0x01C 0x0000FF03#32] ∧
  scriptCmd (.pack 1#8) = [.regWrite 4 0x01C 0x00000104#32] ∧
  (∀ w ∈ [0x00000005#32, 0x00000011#32, 0x00010001#32], ∀ s, ∃ t,
    exec (decode w) s = .next t ∧ t.errcode = 1#4) ∧
  decode 0x00000000#32 = .nop 0#8 ∧ decode 0x00000701#32 = .run 7#8 ∧
  decode 0x00001002#32 = .prep 0x10#8 ∧ decode 0x0000FF03#32 = .dither 0xFF#8 ∧
  decode 0x00000104#32 = .pack 1#8 ∧ decode 0x00000005#32 = .illegal 5#4 0#4 0#8 0#16 ∧
  decode 0x00000011#32 = .illegal 1#4 1#4 0#8 0#16 ∧
  decode 0x00010001#32 = .illegal 1#4 0#4 0#8 1#16 ∧
  ctrlWord { mode := 0#2 } = 0x00008000#32 ∧
  ctrlWord { mode := 2#2, inv := true, threshold := 100#8 } = 0x00006406#32 ∧
  ctrlWord { mode := 3#2, frame := true, fmt := 1#2 } = 0x00008053#32 ∧
  ctrlWord { mode := 1#2, sharp := true, fmt := 2#2, irq := true, threshold := 0#8 } = 0x00010089#32

/-! ## 70_reset_and_hazards.md, 10_state.md: reset -/

/-- Every piece of engine state after reset, as the host reads it and as R502 lists it. That `CAP` reads 384
is the model's choice: its reset is on the reference device of 00_scope.md R10 (log 16). -/
def Obligations.ResetLeavesTableValues : Prop :=
  State.reset.regValue .id = 0x44544801#32 ∧ State.reset.regValue .cap = 384#32 ∧
  State.reset.regValue .ctrl = 0x00008000#32 ∧ State.reset.mode = .floydSteinberg ∧
  State.reset.invert = false ∧ State.reset.sharpen = false ∧ State.reset.frame = false ∧
  State.reset.infmt = .y8 ∧ State.reset.threshold = 128 ∧ State.reset.irqEn = false ∧
  State.reset.regValue .geom = 0#32 ∧ State.reset.regValue .srcAddr = 0#32 ∧
  State.reset.regValue .srcStride = 0#32 ∧ State.reset.regValue .dstAddr = 0#32 ∧
  State.reset.regValue .status = 0#32 ∧ State.reset.regValue .outLen = 0#32 ∧
  State.reset.regValue .faultAddr = 0#32 ∧
  (∀ i : Fin 256, (State.reset.lut[i.val]'i.isLt).written = false) ∧
  (List.finRange 64).map (fun k => (State.reset.regValue (.bayer k)).toNat) =
    [ 0, 32,  8, 40,  2, 34, 10, 42, 48, 16, 56, 24, 50, 18, 58, 26,
     12, 44,  4, 36, 14, 46,  6, 38, 60, 28, 52, 20, 62, 30, 54, 22,
      3, 35, 11, 43,  1, 33,  9, 41, 51, 19, 59, 27, 49, 17, 57, 25,
     15, 47,  7, 39, 13, 45,  5, 37, 63, 31, 55, 23, 61, 29, 53, 21] ∧
  State.reset.job = none ∧ State.reset.work = none ∧ State.reset.irq = false

/-- The reset state has the invariant of the machine. The invariant holds the spec's ranges and the model's
own canonical form of memory (log 1) and legal platform (log 16). -/
def Obligations.ResetHasInvariant : Prop := State.reset.Inv

/-- The reset event: every register, the LUT flags, the latch and the working field as at reset; every byte
of the write set of the abandoned job takes a free value of its own (logs 5, 9), and no other byte
changes; what the outside does next stays (R500, R501). -/
def Obligations.ResetEventAbandonsJob : Prop :=
  ∀ (s : State) (rest : List Input), s.inputs = .reset :: rest →
    ∃ t, step s = .next t ∧
      t.ctrl = State.reset.ctrl ∧ t.geom = State.reset.geom ∧ t.srcAddr = State.reset.srcAddr ∧
      t.srcStride = State.reset.srcStride ∧ t.dstAddr = State.reset.dstAddr ∧
      t.statusWord = 0#32 ∧ t.outLen = 0#32 ∧ t.faultAddr = 0#32 ∧ t.job = none ∧ t.work = none ∧
      t.irq = false ∧ (∀ i : Fin 256, (t.lut[i.val]'i.isLt).written = false) ∧
      t.plat = s.plat ∧ t.inputs = rest ∧ t.answers = s.answers ∧
      (s.job = none → t.mem = s.mem) ∧
      (s.job = none → t.fresh = s.fresh) ∧
      ∀ w, s.job = some w →
        (∀ a, a ∉ s.dstAddrs (s.jobWriteLength w) → readByte t.mem a = readByte s.mem a) ∧
        t.fresh = s.fresh + s.jobWriteLength w ∧
        (Memory.wf s.mem = true → s.plat.wf = true → ∀ j, j < s.jobWriteLength w →
          readByte t.mem (s.dstByteAddr j) = Config.freeByte (s.fresh + j))

/-- Right after reset a NOP succeeds, every memory job ends with `BAD_GEOMETRY` and touches no memory,
and `CTRL` selects the defaults (R503). -/
def Obligations.AfterResetOnlyNopSucceeds : Prop :=
  (∀ tag, ∃ t, exec (.nop tag) State.reset = .next t ∧ t.err = false ∧ t.errcode = 0#4) ∧
  (∀ k tag, ∃ t, exec (commandOf k tag) State.reset = .next t ∧ t.err = true ∧ t.errcode = 3#4 ∧
    t.mem = State.reset.mem) ∧
  State.reset.mode = .floydSteinberg ∧ State.reset.threshold = 128 ∧ State.reset.infmt = .y8 ∧
  State.reset.sharpen = false ∧ State.reset.invert = false ∧ State.reset.frame = false

/-! ## The step -/

/-- When it is the engine's turn, because nothing else is pending or because its turn is the oldest
pending input, the step of a busy engine is the meaning of the latched word's command on the
state with that turn taken (10_state.md R51, R91; 40_commands.md R252, R253). -/
def Obligations.StepRunsLatchedCommand : Prop :=
  ∀ (s : State) (w : Word) (i : Instr), s.job = some w → decode w = i → i.wf = true →
    (s.inputs = [] → step s = exec i s) ∧
    (∀ rest, s.inputs = .engine :: rest → step s = exec i { s with inputs := rest })

/-- An idle engine on its turn keeps all of its state (60_exceptions.md R475). -/
def Obligations.IdleEngineKeepsState : Prop :=
  ∀ s : State, s.job = none →
    (s.inputs = [] → step s = .next s) ∧
    (∀ rest, s.inputs = .engine :: rest → step s = .next { s with inputs := rest })

/-- The invariant of the machine is kept by every step, whoever takes it. Canonical memory (log 1), the
legal platform (log 16) and the working field between steps (log 18) are the model's clauses. -/
def Obligations.StepKeepsInvariant : Prop :=
  ∀ s t : State, s.Inv → step s = .next t → t.Inv

/-- A busy engine that is not reset completes its job no later than one step after everything pending has
been taken, if no fault and no refusal stops the machine: at some point it is idle, `DONE` is 1
and `LAST_TAG` is the tag of the latched word (40_commands.md R252). -/
def Obligations.JobCompletesAfterPendingInputs : Prop :=
  ∀ (s t : State) (w : Word), s.job = some w → Input.reset ∉ s.inputs →
    Host.Core.run Sys2Proof.core (s.inputs.length + 1) s = .next t →
    ∃ k u, k ≤ s.inputs.length + 1 ∧ Host.Core.run Sys2Proof.core k s = .next u ∧
      u.job = none ∧ u.done = true ∧ u.lastTag = tagField w

/-- While a job runs, no host access changes what it depends on: the latched word, the configuration, the
LUT, the results of the last job, and every byte of its read and write sets (10_state.md R92;
20_memory.md R170, R173). -/
def Obligations.BusyStepKeepsJobInputs : Prop :=
  ∀ (s t : State) (w : Word) (e : Input) (rest : List Input), s.job = some w →
    s.inputs = e :: rest → e ≠ .engine → e ≠ .reset → s.plat.wf = true → step s = .next t →
    t.job = some w ∧ t.ctrl = s.ctrl ∧ t.geom = s.geom ∧ t.srcAddr = s.srcAddr ∧
    t.srcStride = s.srcStride ∧ t.dstAddr = s.dstAddr ∧ t.lut = s.lut ∧ t.plat = s.plat ∧
    t.errcode = s.errcode ∧ t.lastTag = s.lastTag ∧ t.outLen = s.outLen ∧
    t.faultAddr = s.faultAddr ∧
    ∀ a, a ∈ s.jobReads w ∨ a ∈ s.dstAddrs (s.jobWriteLength w) →
      readByte t.mem a = readByte s.mem a

/-! ## 10_state.md: the register window -/

/-- An idle engine stores a write to a configuration register: `CTRL` without its reserved bits
(R62, R70), the others whole (R71-R74). -/
def Obligations.IdleConfigWriteStored : Prop :=
  ∀ (s : State) (v : Word), s.job = none →
    hostRegWrite 4 0x008 v s = .next { s with ctrl := v &&& 0x0001FFDF#32 } ∧
    hostRegWrite 4 0x00C v s = .next { s with geom := v } ∧
    hostRegWrite 4 0x010 v s = .next { s with srcAddr := v } ∧
    hostRegWrite 4 0x014 v s = .next { s with srcStride := v } ∧
    hostRegWrite 4 0x018 v s = .next { s with dstAddr := v }

/-- While busy a write to a configuration register or a LUT entry is ignored and sets `WIGN`; reads are
never blocked (R92). -/
def Obligations.BusyConfigWriteIgnored : Prop :=
  ∀ (s : State) (w v : Word) (offset : Nat), s.job = some w →
    (offset ∈ [0x008, 0x00C, 0x010, 0x014, 0x018] ∨ ∃ i, i < 256 ∧ offset = 0x400 + 4 * i) →
    hostRegWrite 4 offset v s = .next { s with wign := true } ∧
    ∀ o, o % 4 = 0 → o ≤ 0xFFC → ∃ t, hostRegRead 4 o s = .next t

/-- While busy a write to `CMD` is ignored and sets `WIGN` (40_commands.md R251). -/
def Obligations.BusyCommandIgnored : Prop :=
  ∀ (s : State) (w v : Word), s.job = some w →
    hostRegWrite 4 0x01C v s = .next { s with wign := true }

/-- An idle engine accepts any word written to `CMD`: `busy` and the latch are set, `DONE` and `ERR`
cleared, everything else kept (40_commands.md R250). -/
def Obligations.IdleCommandAccepted : Prop :=
  ∀ (s : State) (w : Word), s.job = none →
    hostRegWrite 4 0x01C w s = .next { s with job := some w, done := false, err := false }

/-- A write to `STATUS` clears `DONE`, `ERR`, `WIGN` where the value has a 1 and changes nothing else,
busy or not; 0x0000000E clears all three (R77). -/
def Obligations.StatusWriteOneToClear : Prop :=
  ∀ s : State,
    (∀ v : Word, hostRegWrite 4 0x020 v s = .next { s with
      done := s.done && !(v.toNat / 2 % 2 == 1)
      err := s.err && !(v.toNat / 4 % 2 == 1)
      wign := s.wign && !(v.toNat / 8 % 2 == 1) }) ∧
    hostRegWrite 4 0x020 0x0000000E#32 s = .next { s with done := false, err := false, wign := false }

/-- Writes to read-only registers and reserved offsets are dropped, busy or not; reserved offsets read 0
(R84, R85). -/
def Obligations.ReadOnlyAndReservedWritesDropped : Prop :=
  ∀ (s : State) (v : Word) (offset : Nat), offset % 4 = 0 →
    (offset ∈ [0x000, 0x004, 0x024, 0x028] ∨ (0x800 ≤ offset ∧ offset < 0x900) ∨
      (0x02C ≤ offset ∧ offset ≤ 0x3FC) ∨ (0x900 ≤ offset ∧ offset ≤ 0xFFC)) →
    hostRegWrite 4 offset v s = .next s ∧
    ((0x02C ≤ offset ∧ offset ≤ 0x3FC) ∨ (0x900 ≤ offset ∧ offset ≤ 0xFFC) →
      hostRegRead 4 offset s = .next { s with answers := .reg offset 0#32 :: s.answers })

/-- A LUT write by an idle engine stores `min(v[15:0], FULL)` in its entry and changes nothing else; so
every entry stays in 0..65280 (R81). -/
def Obligations.LutWriteStoresClampedValue : Prop :=
  ∀ (s : State) (i : Fin 256) (v : Word), s.job = none →
    ∃ t, hostRegWrite 4 (0x400 + 4 * i.val) v s = .next t ∧ t = { s with lut := t.lut } ∧
      (t.lut[i.val]'i.isLt).value.toNat = min (v.toNat % 65536) 65280 ∧
      (t.lut[i.val]'i.isLt).written = true ∧
      (∀ j : Fin 256, j ≠ i → t.lut[j.val]'j.isLt = s.lut[j.val]'j.isLt) ∧
      ((∀ j : Fin 256, (s.lut[j.val]'j.isLt).value.toNat ≤ 65280) →
        ∀ j : Fin 256, (t.lut[j.val]'j.isLt).value.toNat ≤ 65280)

/-- A host read of `LUT[i]` answers the zero-extended entry when it was written since reset, else a free
value in [15:0] (log 3), and 0 in [31:16] in any case (R82). -/
def Obligations.LutReadAnswersEntry : Prop :=
  ∀ (s : State) (i : Fin 256), ∃ t v,
    hostRegRead 4 (0x400 + 4 * i.val) s = .next t ∧
    t.answers = .reg (0x400 + 4 * i.val) v :: s.answers ∧ v.toNat < 65536 ∧
    ((s.lut[i.val]'i.isLt).written = true →
      v.toNat = (s.lut[i.val]'i.isLt).value.toNat ∧ t.fresh = s.fresh) ∧
    ((s.lut[i.val]'i.isLt).written = false →
      v.toNat = (Config.freeLutRead s.fresh).toNat ∧ t.fresh = s.fresh + 1)

/-- A register read changes nothing but the model's record of answers and free-value counter
(20_memory.md R182), and the registers answer at their offsets: `CTRL`, `GEOM`, `SRC_ADDR`,
`SRC_STRIDE`, `DST_ADDR`, `CMD` (always 0), `STATUS`, `OUT_LEN`, `FAULT_ADDR`
(10_state.md R55, R75, R78, R79). -/
def Obligations.RegisterReadHasNoSideEffect : Prop :=
  (∀ (s t : State) (size offset : Nat), hostRegRead size offset s = .next t →
    t = { s with answers := t.answers, fresh := t.fresh } ∧
    t.answers = .reg offset (s.regValue (regAt offset)) :: s.answers) ∧
  ∀ s : State,
    hostRegRead 4 0x008 s = .next { s with answers := .reg 0x008 s.ctrl :: s.answers } ∧
    hostRegRead 4 0x00C s = .next { s with answers := .reg 0x00C s.geom :: s.answers } ∧
    hostRegRead 4 0x010 s = .next { s with answers := .reg 0x010 s.srcAddr :: s.answers } ∧
    hostRegRead 4 0x014 s = .next { s with answers := .reg 0x014 s.srcStride :: s.answers } ∧
    hostRegRead 4 0x018 s = .next { s with answers := .reg 0x018 s.dstAddr :: s.answers } ∧
    hostRegRead 4 0x01C s = .next { s with answers := .reg 0x01C 0#32 :: s.answers } ∧
    hostRegRead 4 0x020 s = .next { s with answers := .reg 0x020 s.statusWord :: s.answers } ∧
    hostRegRead 4 0x024 s = .next { s with answers := .reg 0x024 s.outLen :: s.answers } ∧
    hostRegRead 4 0x028 s = .next { s with answers := .reg 0x028 s.faultAddr :: s.answers }

/-- The layout of `STATUS` (R76). -/
def Obligations.StatusWordLayout : Prop :=
  ∀ s : State,
    s.statusWord.getLsbD 0 = s.job.isSome ∧ s.statusWord.getLsbD 1 = s.done ∧
    s.statusWord.getLsbD 2 = s.err ∧ s.statusWord.getLsbD 3 = s.wign ∧
    s.statusWord.toNat / 16 % 16 = s.errcode.toNat ∧
    s.statusWord.toNat / 256 % 256 = s.lastTag.toNat ∧ s.statusWord.toNat / 65536 = 0

/-- `ID` and `CAP` answer their constants, and writes to them are ignored (R60, R61). -/
def Obligations.IdentificationReads : Prop :=
  ∀ s : State, s.plat.wf = true →
    hostRegRead 4 0x000 s = .next { s with answers := .reg 0x000 0x44544801#32 :: s.answers } ∧
    (∃ v, hostRegRead 4 0x004 s = .next { s with answers := .reg 0x004 v :: s.answers } ∧
      v.toNat % 65536 = s.plat.maxDots ∧ v.toNat / 65536 = 0) ∧
    ∀ v : Word, hostRegWrite 4 0x000 v s = .next s ∧ hostRegWrite 4 0x004 v s = .next s

/-- The Bayer window reads the matrix of R83, a permutation of 0..63 (95_test_vectors.md V11). -/
def Obligations.BayerWindowReads : Prop :=
  (∀ (s : State) (k : Fin 64),
    s.regValue (regAt (0x800 + 4 * k.val)) = BitVec.ofNat 32 (
      ([[ 0, 32,  8, 40,  2, 34, 10, 42], [48, 16, 56, 24, 50, 18, 58, 26],
        [12, 44,  4, 36, 14, 46,  6, 38], [60, 28, 52, 20, 62, 30, 54, 22],
        [ 3, 35, 11, 43,  1, 33,  9, 41], [51, 19, 59, 27, 49, 17, 57, 25],
        [15, 47,  7, 39, 13, 45,  5, 37], [63, 31, 55, 23, 61, 29, 53, 21]].getD (k.val / 8) []).getD
        (k.val % 8) 0)) ∧
  ∀ n, n < 64 → ∃ r c, r < 8 ∧ c < 8 ∧ bayer r c = n

/-- A register access that is not 32 bits wide at a multiple of 4 inside the window is refused by name;
every other one is taken (20_memory.md R180; that the refusal is the model's form is the rule's own). -/
def Obligations.RegisterAccessWidthAndAlignment : Prop :=
  ∀ (s : State) (size offset : Nat) (v : Word),
    (size ≠ 4 ∨ offset % 4 ≠ 0 ∨ 0xFFC < offset →
      hostRegRead size offset s = .refused (.badRegisterAccess size offset) ∧
      hostRegWrite size offset v s = .refused (.badRegisterAccess size offset)) ∧
    (size = 4 ∧ offset % 4 = 0 ∧ offset ≤ 0xFFC →
      (∃ t, hostRegRead size offset s = .next t) ∧ ∃ t, hostRegWrite size offset v s = .next t)

/-! ## 20_memory.md: the host and system memory -/

/-- A host access that races the running job is refused (R173; log 13); every other one, and every one while
the engine is idle, reads or writes its one byte and nothing else (R170). That it is performed
whatever `MemAdmit` says of the byte is the model's choice (log 22). -/
def Obligations.HostMemoryAccess : Prop :=
  ∀ (s : State) (a : Word) (v : Byte), s.plat.wf = true →
    (∀ w, s.job = some w →
      (a.toNat ∈ s.dstAddrs (s.jobWriteLength w) →
        hostMemRead a s = .refused (.hostRace a) ∧ hostMemWrite a v s = .refused (.hostRace a)) ∧
      (a.toNat ∈ s.jobReads w → hostMemWrite a v s = .refused (.hostRace a))) ∧
    ((∀ w, s.job = some w → a.toNat ∉ s.dstAddrs (s.jobWriteLength w)) →
      hostMemRead a s = .next { s with answers := .mem a (readByte s.mem a.toNat) :: s.answers }) ∧
    ((∀ w, s.job = some w → a.toNat ∉ s.dstAddrs (s.jobWriteLength w) ∧ a.toNat ∉ s.jobReads w) →
      Memory.wf s.mem = true →
      ∃ t, hostMemWrite a v s = .next t ∧ t = { s with mem := t.mem } ∧ Memory.wf t.mem = true ∧
        readByte t.mem a.toNat = v ∧ ∀ b, b ≠ a.toNat → readByte t.mem b = readByte s.mem b)

/-! ## 40_commands.md: the commands -/

/-- NOP completes with success in every state, so after reset too, and writes the status of R260 alone; its
word is `0x0000TT00`, and the same word with a reserved bit set is `ILLEGAL_CMD`; tag 3 leaves
`STATUS` = 0x00000302 when `WIGN` is 0. -/
def Obligations.NopCompletes : Prop :=
  ∀ (s : State) (tag : BitVec 8),
    exec (.nop tag) s = .next { s with
      done := true, err := false, errcode := 0#4, lastTag := tag, outLen := 0#32, faultAddr := 0#32
      job := none, work := none } ∧
    (encode (.nop tag)).toNat = 256 * tag.toNat ∧
    (∀ w : Word, w.toNat % 16 = 0 → (w.toNat / 16 % 16 ≠ 0 ∨ w.toNat / 65536 ≠ 0) →
      ∃ t, exec (decode w) s = .next t ∧ t.errcode = 1#4) ∧
    (s.wign = false → ∃ t, exec (.nop 3#8) s = .next t ∧ t.statusWord = 0x00000302#32)

/-- An illegal word is accepted and makes the engine busy, and completes with `ILLEGAL_CMD`: it writes the
status of R290 alone and touches no memory; 0x00004209 leaves `STATUS` = 0x00004216 when `WIGN`
is 0. -/
def Obligations.IllegalCommandCompletes : Prop :=
  ∀ s : State,
    (∀ (op rsv0 : BitVec 4) (tag : BitVec 8) (rsv1 : BitVec 16),
      exec (.illegal op rsv0 tag rsv1) s = .next { s with
        done := true, err := true, errcode := 1#4, lastTag := tag, outLen := 0#32, faultAddr := 0#32
        job := none, work := none }) ∧
    (∀ w : Word, ¬ (w.toNat % 16 ≤ 4 ∧ w.toNat / 16 % 16 = 0 ∧ w.toNat / 65536 = 0) →
      (s.job = none → hostRegWrite 4 0x01C w s = .next { s with
        job := some w, done := false, err := false }) ∧
      exec (decode w) s = .next { s with
        done := true, err := true, errcode := 1#4, lastTag := BitVec.ofNat 8 (w.toNat / 256)
        outLen := 0#32, faultAddr := 0#32, job := none, work := none }) ∧
    (s.wign = false → ∃ t, exec (decode 0x00004209#32) s = .next t ∧ t.statusWord = 0x00004216#32)

/-- The launch checks in their order: `ILLEGAL_CMD` for the word, then `BAD_FORMAT` for RUN and PREP with
`INFMT` = 3, then `BAD_GEOMETRY`; the job changes its status registers alone, no memory (R254;
60_exceptions.md R451, R455). -/
def Obligations.LaunchErrorsInOrder : Prop :=
  ∀ (s : State) (k : JobKind) (tag : BitVec 8),
    (∀ w : Word, (w.toNat / 16 % 16 ≠ 0 ∨ w.toNat / 65536 ≠ 0 ∨ 4 < w.toNat % 16) →
      exec (decode w) s = .next { s with
        done := true, err := true, errcode := 1#4, lastTag := BitVec.ofNat 8 (w.toNat / 256)
        outLen := 0#32, faultAddr := 0#32, job := none, work := none }) ∧
    ((k = .run ∨ k = .prep) → s.ctrl.toNat / 64 % 4 = 3 →
      exec (commandOf k tag) s = .next { s with
        done := true, err := true, errcode := 2#4, lastTag := tag, outLen := 0#32, faultAddr := 0#32
        job := none, work := none }) ∧
    (¬ ((k = .run ∨ k = .prep) ∧ s.ctrl.toNat / 64 % 4 = 3) →
      (s.geom.toNat % 65536 = 0 ∨ s.plat.maxDots < s.geom.toNat % 65536 ∨ s.geom.toNat / 65536 = 0) →
      exec (commandOf k tag) s = .next { s with
        done := true, err := true, errcode := 3#4, lastTag := tag, outLen := 0#32, faultAddr := 0#32
        job := none, work := none })

/-- A job that passes the launch checks and has a refused byte in its read or write set ends with
`BUS_FAULT`: `FAULT_ADDR` is a refused byte, freely picked (log 6), the only one when there is one;
every admitted byte of the write set takes a free value of its own (log 7), and no other byte
changes (R255; 60_exceptions.md R452, R453). -/
def Obligations.BusFaultReportsRefusedByte : Prop :=
  ∀ (s : State) (k : JobKind) (tag : BitVec 8) (b : Nat), s.launchError k = none →
    ((b ∈ s.readSet k ∧ memAdmit s.plat .read b = false) ∨
      (b ∈ s.dstAddrs (s.outputLength k) ∧ memAdmit s.plat .write b = false)) →
    ∃ t, exec (commandOf k tag) s = .next t ∧ t.ReportsError tag 4#4 ∧ s.KeepsConfig t ∧
      ((t.faultAddr.toNat ∈ s.readSet k ∧ memAdmit s.plat .read t.faultAddr.toNat = false) ∨
        (t.faultAddr.toNat ∈ s.dstAddrs (s.outputLength k) ∧
          memAdmit s.plat .write t.faultAddr.toNat = false)) ∧
      ((∀ c, (c ∈ s.readSet k ∧ memAdmit s.plat .read c = false) ∨
          (c ∈ s.dstAddrs (s.outputLength k) ∧ memAdmit s.plat .write c = false) → c = b) →
        t.faultAddr.toNat = b) ∧
      t.faultAddr.toNat = (s.badAddrs k).getD (Config.freePick s.fresh % (s.badAddrs k).length) 0 ∧
      (∀ admitted, admitted = (s.dstAddrs (s.outputLength k)).filter (memAdmit s.plat .write) →
        t.fresh = s.fresh + 1 + admitted.length ∧
        (Memory.wf s.mem = true → s.plat.wf = true → ∀ (j : Nat) (h : j < admitted.length),
          readByte t.mem admitted[j] = Config.freeByte (s.fresh + 1 + j))) ∧
      ∀ a, ¬ (a ∈ s.dstAddrs (s.outputLength k) ∧ memAdmit s.plat .write a = true) →
        readByte t.mem a = readByte s.mem a

/-- RUN completes: when it passes its checks, every LUT entry it looks up is written and its buffers do
not overlap, the raster of the dithered prepared field stands at `DST_ADDR`, framed when asked,
and nothing else of memory or of the configuration changes (R253, R256, R270). -/
def Obligations.RunCompletes : Prop :=
  ∀ (s : State) (tag : BitVec 8), Memory.wf s.mem = true → s.plat.wf = true →
    s.jobReady .run = true → s.overlaps .run = false → s.lookupsWritten →
    ∃ t, exec (.run tag) s = .next t ∧ t.ReportsOk tag (s.outputLength .run) ∧ s.KeepsConfig t ∧
      s.HoldsRaster t (bitAt (ditherBits s.ditherCfg s.preparedField)) ∧
      ∀ a, a ∉ s.dstAddrs (s.outputLength .run) → readByte t.mem a = readByte s.mem a

/-- PREP completes: sample `(x, y)` of the prepared field stands little-endian at output bytes
`2(yW + x)` and the next, and nothing else of memory or of the configuration changes (R253, R256,
R275; 20_memory.md R167). -/
def Obligations.PrepCompletes : Prop :=
  ∀ (s : State) (tag : BitVec 8), Memory.wf s.mem = true → s.plat.wf = true →
    s.jobReady .prep = true → s.overlaps .prep = false → s.lookupsWritten →
    ∃ t, exec (.prep tag) s = .next t ∧ t.ReportsOk tag (s.outputLength .prep) ∧ s.KeepsConfig t ∧
      (∀ x y, x < s.paddedWidth → y < s.height →
        ((readByte t.mem (s.dstByteAddr (2 * (y * s.paddedWidth + x)))).toNat +
          256 * (readByte t.mem (s.dstByteAddr (2 * (y * s.paddedWidth + x) + 1))).toNat : Int) =
          sampleAt s.preparedField x y) ∧
      ∀ a, a ∉ s.dstAddrs (s.outputLength .prep) → readByte t.mem a = readByte s.mem a

/-- DITHER completes: the raster of the dithered field in memory stands at `DST_ADDR`, framed when asked,
and nothing else of memory or of the configuration changes (R253, R256, R280). -/
def Obligations.DitherCompletes : Prop :=
  ∀ (s : State) (tag : BitVec 8), Memory.wf s.mem = true → s.plat.wf = true →
    s.jobReady .dither = true → s.overlaps .dither = false →
    ∃ t, exec (.dither tag) s = .next t ∧ t.ReportsOk tag (s.outputLength .dither) ∧
      s.KeepsConfig t ∧ s.HoldsRaster t (bitAt (ditherBits s.ditherCfg s.sampleField)) ∧
      (∀ x y, x < s.paddedWidth → y < s.height → sampleAt s.sampleField x y =
        if x < s.srcWidth then
          min (((readByte s.mem (s.srcByteAddr 2 x y 0)).toNat +
            256 * (readByte s.mem (s.srcByteAddr 2 x y 1)).toNat : Nat) : Int) 65280
        else 65280) ∧
      ∀ a, a ∉ s.dstAddrs (s.outputLength .dither) → readByte t.mem a = readByte s.mem a

/-- PACK completes: pixel `(x, y)` of the raster at `DST_ADDR` is black iff its source byte is not 0,
white in the padding columns, framed when asked, and nothing else of memory or of the
configuration changes (R253, R256, R285; 43_pack.md R403). -/
def Obligations.PackCompletes : Prop :=
  ∀ (s : State) (tag : BitVec 8), Memory.wf s.mem = true → s.plat.wf = true →
    s.jobReady .pack = true → s.overlaps .pack = false →
    ∃ t, exec (.pack tag) s = .next t ∧ t.ReportsOk tag (s.outputLength .pack) ∧ s.KeepsConfig t ∧
      s.HoldsRaster t (fun x y => decide (x < s.srcWidth ∧
        readByte s.mem ((s.srcAddr.toNat + y * s.srcStride.toNat + x) % 4294967296) ≠ 0#8)) ∧
      ∀ a, a ∉ s.dstAddrs (s.outputLength .pack) → readByte t.mem a = readByte s.mem a

/-- A job whose read and write sets share a byte: status as for a job without overlap, every byte of the
write set a free value of its own, other bytes and the configuration kept (20_memory.md R174; log 8). -/
def Obligations.OverlapFreesWholeWriteSet : Prop :=
  ∀ (s : State) (k : JobKind) (tag : BitVec 8), Memory.wf s.mem = true → s.plat.wf = true →
    s.jobReady k = true → s.overlaps k = true → ((k = .run ∨ k = .prep) → s.lookupsWritten) →
    ∃ t, exec (commandOf k tag) s = .next t ∧ t.ReportsOk tag (s.outputLength k) ∧
      s.KeepsConfig t ∧
      t.fresh = s.fresh + s.outputLength k ∧
      (∀ j, j < s.outputLength k →
        readByte t.mem (s.dstByteAddr j) = Config.freeByte (s.fresh + j)) ∧
      ∀ a, a ∉ s.dstAddrs (s.outputLength k) → readByte t.mem a = readByte s.mem a

/-- A RUN or PREP that passes its checks and looks up a LUT entry not written since reset is the model
fault of 41_preprocess.md R311 and 70_reset_and_hazards.md R501, naming such an entry. -/
def Obligations.UnwrittenLookupFaults : Prop :=
  ∀ (s : State) (k : JobKind) (tag : BitVec 8), (k = .run ∨ k = .prep) → s.jobReady k = true →
    ¬ s.lookupsWritten →
    ∃ x y, x < s.paddedWidth ∧ y < s.height ∧ s.lutSample (s.lookedUp x y) = none ∧
      exec (commandOf k tag) s = .fault (.lutUnwritten (s.lookedUp x y))

/-- No command writes a byte outside its write set, and none changes the configuration, whatever its
outcome (20_memory.md R166; 40_commands.md R253). -/
def Obligations.CommandWritesOnlyWriteSet : Prop :=
  ∀ (i : Instr) (s t : State), i.wf = true → exec i s = .next t →
    s.KeepsConfig t ∧
    ∀ a, a ∉ s.dstAddrs (s.jobWriteLength (encode i)) → readByte t.mem a = readByte s.mem a

/-- A byte the platform refuses for writing is never changed by a command (20_memory.md R150;
60_exceptions.md R453). -/
def Obligations.RefusedByteNeverWritten : Prop :=
  ∀ (i : Instr) (s t : State) (a : Nat), exec i s = .next t → memAdmit s.plat .write a = false →
    readByte t.mem a = readByte s.mem a

/-- Every completion sets `DONE`, copies the tag to `LAST_TAG`, frees the latch and the working field, and
sets `ERR` exactly when the code is not 0; `irq` is then `IRQ_EN` (R253; 30_encoding.md R202;
60_exceptions.md R460). -/
def Obligations.CompletionStatus : Prop :=
  ∀ (i : Instr) (s t : State), exec i s = .next t →
    t.done = true ∧ t.lastTag = i.tag ∧ t.job = none ∧ t.work = none ∧
    (t.err = true ↔ t.errcode ≠ 0#4) ∧ t.errcode.toNat ≤ 4 ∧
    (t.err = true → t.outLen = 0#32) ∧ (t.errcode ≠ 4#4 → t.faultAddr = 0#32) ∧
    t.irq = s.irqEn

/-- The interrupt line: high exactly when `IRQ_EN` and `DONE` are 1, so low after acceptance and after a
write of 1 to `DONE` (60_exceptions.md R460). -/
def Obligations.InterruptLevel : Prop :=
  ∀ s : State,
    s.irq = (s.ctrl.getLsbD 16 && s.done) ∧
    (∀ (w : Word) (t : State), s.job = none → hostRegWrite 4 0x01C w s = .next t → t.irq = false) ∧
    (∀ (v : Word) (t : State), v.getLsbD 1 = true → hostRegWrite 4 0x020 v s = .next t → t.irq = false)

/-- RUN is PREP to a buffer `T` followed by DITHER of that buffer: the same output bytes and length (R295). -/
def Obligations.RunIsPrepThenDither : Prop :=
  ∀ (s : State) (T : Word) (tag₁ tag₂ tag₃ : BitVec 8), s.Inv →
    let W := s.paddedWidth
    let forPrep : State := { s with dstAddr := T }
    let forDither : State → State := fun u => { u with
      srcAddr := T, srcStride := BitVec.ofNat 32 (2 * W), dstAddr := s.dstAddr
      geom := BitVec.ofNat 16 s.height ++ BitVec.ofNat 16 W }
    s.lookupsWritten → s.jobReady .run = true → s.overlaps .run = false →
    forPrep.jobReady .prep = true → forPrep.overlaps .prep = false →
    (forDither s).jobReady .dither = true → (forDither s).overlaps .dither = false →
    ∃ r p d, exec (.run tag₁) s = .next r ∧ exec (.prep tag₂) forPrep = .next p ∧
      exec (.dither tag₃) (forDither p) = .next d ∧ d.outLen = r.outLen ∧
      ∀ j, j < r.outLen.toNat →
        readByte d.mem (s.dstByteAddr j) = readByte r.mem (s.dstByteAddr j)

/-- A job that succeeds without overlap is a function of the registers, the LUT and the bytes of its read
set: two machines that agree on those give the same outcome, status and output bytes (R296). -/
def Obligations.JobDependsOnReadSetOnly : Prop :=
  ∀ (s s' : State) (k : JobKind) (tag : BitVec 8),
    Memory.wf s.mem = true → Memory.wf s'.mem = true → s.plat.wf = true →
    s'.ctrl = s.ctrl → s'.geom = s.geom → s'.srcAddr = s.srcAddr → s'.srcStride = s.srcStride →
    s'.dstAddr = s.dstAddr → s'.lut = s.lut → s'.plat = s.plat →
    (∀ a ∈ s.readSet k, readByte s'.mem a = readByte s.mem a) →
    s.badAddrs k = [] → s.overlaps k = false →
    (∃ f, exec (commandOf k tag) s = .fault f ∧ exec (commandOf k tag) s' = .fault f) ∨
    (∃ t t', exec (commandOf k tag) s = .next t ∧ exec (commandOf k tag) s' = .next t' ∧
      t'.outLen = t.outLen ∧ t'.errcode = t.errcode ∧ t'.faultAddr = t.faultAddr ∧
      t'.lastTag = t.lastTag ∧ t'.done = t.done ∧ t'.err = t.err ∧
      ∀ j, j < t.outLen.toNat →
        readByte t'.mem (s.dstByteAddr j) = readByte t.mem (s.dstByteAddr j))

/-! ## 41_preprocess.md -/

/-- `luma` of a colour pixel is the weighted sum rounded half up to a level 0..255, a gray pixel's is its
value, alpha plays no part (R303); a Y8 pixel's is its byte (R304). -/
def Obligations.LumaRoundsWeightedSum : Prop :=
  (∀ r g b : Nat, r ≤ 255 → g ≤ 255 → b ≤ 255 →
    lumaRGB r g b ≤ 255 ∧
    1000 * lumaRGB r g b ≤ 299 * r + 587 * g + 114 * b + 500 ∧
    299 * r + 587 * g + 114 * b + 500 < 1000 * lumaRGB r g b + 1000) ∧
  (∀ v : Nat, lumaRGB v v v = v) ∧
  lumaRGB 0 0 250 = 29 ∧ lumaRGB 0 12 4 = 8 ∧ lumaRGB 0 0 5 = 1 ∧ lumaRGB 0 0 4 = 0 ∧
  lumaRGB 255 0 0 = 76 ∧ lumaRGB 0 255 0 = 150 ∧ lumaRGB 0 0 255 = 29 ∧
  ∀ (s : State) (x y : Nat),
    (s.ctrl.toNat / 64 % 4 = 0 → s.luma x y = s.srcByte 1 x y 0) ∧
    (s.ctrl.toNat / 64 % 4 = 1 →
      s.luma x y = lumaRGB (s.srcByte 3 x y 0) (s.srcByte 3 x y 1) (s.srcByte 3 x y 2)) ∧
    (s.ctrl.toNat / 64 % 4 = 2 →
      s.luma x y = lumaRGB (s.srcByte 4 x y 0) (s.srcByte 4 x y 1) (s.srcByte 4 x y 2))

/-- The padded width is a multiple of 8, at least the source width, and at most `MAX_DOTS` for a legal
geometry (R306). -/
def Obligations.PaddedWidthWithinDevice : Prop :=
  ∀ s : State, s.plat.wf = true → s.srcWidth ≤ s.plat.maxDots →
    s.paddedWidth % 8 = 0 ∧ s.srcWidth ≤ s.paddedWidth ∧ s.paddedWidth ≤ s.plat.maxDots

/-- Every sample of a prepared field is in 0..`FULL` (R300). -/
def Obligations.PreparedFieldInRange : Prop :=
  ∀ (s : State) (G : Field), s.Inv → s.prepare = .ok G →
    G = s.preparedField ∧ preparedShape s.paddedWidth s.height G

/-- The unsharp mask at every pixel, over the neighbours inside the image (R320). -/
def Obligations.SharpenPixel : Prop :=
  ∀ (w h x y : Nat) (A : Field), x < w → y < h →
    let near : List Int := (List.range h).flatMap fun j => (List.range w).flatMap fun i =>
      if x ≤ i + 1 ∧ i ≤ x + 1 ∧ y ≤ j + 1 ∧ j ≤ y + 1 then [sampleAt A i j] else []
    let n : Int := near.length
    let value : Int := Int.fdiv (3 * n * sampleAt A x y - near.sum + n) (2 * n)
    sampleAt (sharpenField w h A) x y = if value < 0 then 0 else if 65280 < value then 65280 else value

/-- The intermediate `3*n*A - S + n` of the unsharp mask lies in `-8*FULL + 9 .. 26*FULL + 9`, so a signed
24-bit intermediate holds it (R322). -/
def Obligations.SharpenIntermediateRange : Prop :=
  ∀ (w h x y : Nat) (A : Field), 8 ≤ w → x < w → y < h → preparedShape w h A →
    let near := (window y h).flatMap fun j => (window x w).map fun i => sampleAt A i j
    let n : Int := near.length
    let m : Int := 3 * n * sampleAt A x y - near.sum + n
    (-8 * 65280 + 9 ≤ m ∧ m ≤ 26 * 65280 + 9) ∧ (-8388608 ≤ m ∧ m < 8388608)

/-! ## 42_dither.md -/

/-- FloydSteinberg at one pixel: the bit is `v < T` before the invert stage, and every cell of the field
gains exactly the contribution the rule gives it, nothing when it lies outside (R353, R355, R368). -/
def Obligations.FloydBodyContributions : Prop :=
  ∀ (cfg : DitherCfg) (x y x' y' : Nat) (F : Field), cfg.mode = .floydSteinberg →
    F.length = cfg.h → (∀ row ∈ F, row.length = cfg.w) →
    x < cfg.w → y < cfg.h → x' < cfg.w → y' < cfg.h →
    let v := sampleAt F x y
    let T : Int := cfg.threshold * 256
    let e : Int := if v < T then v else v - 65280
    (ditherBody cfg x y F).2 = ((decide (v < T)) ^^ cfg.invert) ∧
    sampleAt (ditherBody cfg x y F).1 x' y' = sampleAt F x' y' +
      (if y' = y ∧ x' = x + 1 then Int.tdiv (7 * e) 16
      else if y' = y + 1 ∧ x' + 1 = x then Int.tdiv (3 * e) 16
      else if y' = y + 1 ∧ x' = x then Int.tdiv (5 * e) 16
      else if y' = y + 1 ∧ x' = x + 1 then Int.tdiv e 16
      else 0)

/-- Atkinson at one pixel: the bit is `v < T` before the invert stage, and each of the six targets inside
the field gains `tdiv(e, 8)`, no other cell anything (R353, R360, R368). -/
def Obligations.AtkinsonBodyContributions : Prop :=
  ∀ (cfg : DitherCfg) (x y x' y' : Nat) (F : Field), cfg.mode = .atkinson →
    F.length = cfg.h → (∀ row ∈ F, row.length = cfg.w) →
    x < cfg.w → y < cfg.h → x' < cfg.w → y' < cfg.h →
    let v := sampleAt F x y
    let T : Int := cfg.threshold * 256
    let e : Int := if v < T then v else v - 65280
    (ditherBody cfg x y F).2 = ((decide (v < T)) ^^ cfg.invert) ∧
    sampleAt (ditherBody cfg x y F).1 x' y' = sampleAt F x' y' +
      (if (y' = y ∧ (x' = x + 1 ∨ x' = x + 2)) ∨
          (y' = y + 1 ∧ (x' + 1 = x ∨ x' = x ∨ x' = x + 1)) ∨ (y' = y + 2 ∧ x' = x)
        then Int.tdiv e 8 else 0)

/-- No body changes a cell at or before its own pixel in the scan, so the value a pixel is decided on is
final when it is read (R351). -/
def Obligations.BodyWritesOnlyLaterCells : Prop :=
  ∀ (cfg : DitherCfg) (x y x' y' : Nat) (F : Field), (y' < y ∨ (y' = y ∧ x' ≤ x)) →
    sampleAt (ditherBody cfg x y F).1 x' y' = sampleAt F x' y'

/-- The scan is row-major, each pixel once: its bit is that of its body on the field that the bodies of
exactly the pixels before it have left, its value no longer changes after that, and the field the
scan leaves is the one after all pixels; no body changes a cell at or before its own pixel
(R351). -/
def Obligations.ScanIsRowMajor : Prop :=
  ∀ (cfg : DitherCfg) (G : Field),
    (scanField cfg G).1 = fieldBefore cfg G (cfg.w * cfg.h) ∧
    (ditherBits cfg G).length = cfg.h ∧ (∀ row ∈ ditherBits cfg G, row.length = cfg.w) ∧
    (∀ (x y x' y' : Nat) (F : Field), (y' < y ∨ (y' = y ∧ x' ≤ x)) →
      sampleAt (ditherBody cfg x y F).1 x' y' = sampleAt F x' y') ∧
    ∀ x y, x < cfg.w → y < cfg.h →
      bitAt (ditherBits cfg G) x y =
        (ditherBody cfg x y (fieldBefore cfg G (y * cfg.w + x))).2 ∧
      ∀ n, y * cfg.w + x ≤ n →
        sampleAt (fieldBefore cfg G n) x y = sampleAt (fieldBefore cfg G (y * cfg.w + x)) x y

/-- FloydSteinberg at an interior pixel adds `e - r` to the field in all, with `r` the truncation
remainder, 0 when `e` is a multiple of 16; any pixel adds only the shares of the targets inside,
and the field keeps its size (R357). -/
def Obligations.FloydConservesError : Prop :=
  ∀ (cfg : DitherCfg) (x y : Nat) (F : Field), cfg.mode = .floydSteinberg →
    F.length = cfg.h → (∀ row ∈ F, row.length = cfg.w) → x < cfg.w → y < cfg.h →
    let e := quantError cfg.threshold (sampleAt F x y)
    let F' := (ditherBody cfg x y F).1
    F'.length = cfg.h ∧ (∀ row ∈ F', row.length = cfg.w) ∧
    fieldTotal F' = fieldTotal F + (if x + 1 < cfg.w then Int.tdiv (7 * e) 16 else 0) +
      (if y + 1 < cfg.h ∧ 1 ≤ x then Int.tdiv (3 * e) 16 else 0) +
      (if y + 1 < cfg.h then Int.tdiv (5 * e) 16 else 0) +
      (if y + 1 < cfg.h ∧ x + 1 < cfg.w then Int.tdiv e 16 else 0) ∧
    (1 ≤ x → x + 2 ≤ cfg.w → y + 2 ≤ cfg.h →
      ∃ r : Int, fieldTotal F' = fieldTotal F + (e - r) ∧
        (0 ≤ e → 0 ≤ r ∧ r ≤ 3) ∧ (e < 0 → -3 ≤ r ∧ r ≤ 0) ∧ (e % 16 = 0 → r = 0))

/-- Atkinson at an interior pixel adds six times `tdiv(e, 8)` to the field in all, exactly `6e/8` when `e`
is a multiple of 8, and writes nothing but its six targets (R362). -/
def Obligations.AtkinsonLosesQuarterOfError : Prop :=
  ∀ (cfg : DitherCfg) (x y : Nat) (F : Field), cfg.mode = .atkinson →
    F.length = cfg.h → (∀ row ∈ F, row.length = cfg.w) →
    1 ≤ x → x + 3 ≤ cfg.w → y + 3 ≤ cfg.h →
    let e := quantError cfg.threshold (sampleAt F x y)
    fieldTotal (ditherBody cfg x y F).1 = fieldTotal F + 6 * Int.tdiv e 8 ∧
      (e % 8 = 0 → 8 * (6 * Int.tdiv e 8) = 6 * e) ∧
      ∀ x' y', (x', y') ∉ [(x + 1, y), (x + 2, y), (x - 1, y + 1), (x, y + 1), (x + 1, y + 1), (x, y + 2)] →
        sampleAt (ditherBody cfg x y F).1 x' y' = sampleAt F x' y'

/-- In both error-diffusion modes every working value a body reads is in `-FULL .. 2*FULL` and every
quantisation error in `-FULL .. FULL`, so 20 bits hold the products; every sample of every field the
scan passes through, those not yet read among them, is in that range too, so 18 bits hold the
working field (R370; 10_state.md R90). -/
def Obligations.ErrorDiffusionWorkingRange : Prop :=
  ∀ (cfg : DitherCfg) (G : Field), (cfg.mode = .floydSteinberg ∨ cfg.mode = .atkinson) →
    cfg.threshold ≤ 255 → preparedShape cfg.w cfg.h G →
    (∀ n, n ≤ cfg.w * cfg.h → ∀ row ∈ fieldBefore cfg G n, ∀ v ∈ row,
      -65280 ≤ v ∧ v ≤ 130560 ∧ -131072 ≤ v ∧ v < 131072) ∧
    ∀ v ∈ fieldReads cfg (List.range cfg.h) G,
      -65280 ≤ v ∧ v ≤ 130560 ∧ -131072 ≤ v ∧ v < 131072 ∧
      -65280 ≤ quantError cfg.threshold v ∧ quantError cfg.threshold v ≤ 65280 ∧
      -524288 ≤ 7 * quantError cfg.threshold v ∧ 7 * quantError cfg.threshold v < 524288

/-- In every mode, `INVERT` = 1 gives the complement of `INVERT` = 0, bit by bit and byte by byte of the
packed raster (R371). -/
def Obligations.InvertComplementsRaster : Prop :=
  ∀ (cfg : DitherCfg) (G : Field) (bpl : Nat), cfg.w = 8 * bpl →
    ditherBits { cfg with invert := true } G =
      (ditherBits { cfg with invert := false } G).map (fun row => row.map fun b => !b) ∧
    packBits bpl (ditherBits { cfg with invert := true } G) =
      (packBits bpl (ditherBits { cfg with invert := false } G)).map fun b => ~~~b

/-- Ordered8x8 and None decide each pixel from its own sample, its place modulo 8 and the threshold alone,
and do not write the working field (R364, R367). -/
def Obligations.OrderedAndFlatPointwise : Prop :=
  ∀ (cfg : DitherCfg) (x y : Nat) (G : Field), x < cfg.w → y < cfg.h →
    ((cfg.mode = .ordered8x8 ∨ cfg.mode = .flat) →
      (ditherBody cfg x y G).1 = G ∧ (scanField cfg G).1 = G) ∧
    (cfg.mode = .ordered8x8 → bitAt (ditherBits cfg G) x y =
      (decide ((let adj := sampleAt G x y + (128 - (cfg.threshold : Int)) * 256
        if adj < 0 then 0 else if 65280 < adj then 65280 else adj) <
          ((4 * (bayer (y % 8) (x % 8) : Int) + 2) * 256)) ^^ cfg.invert)) ∧
    (cfg.mode = .flat → bitAt (ditherBits cfg G) x y =
      (decide (sampleAt G x y < cfg.threshold * 256) ^^ cfg.invert))

/-- A sample of level 255, as every padding sample of a DITHER is, comes out white before the invert
stage: for every threshold in None and in both error-diffusion modes, for `THRESHOLD <= 129` in
Ordered8x8 (43_pack.md R406). -/
def Obligations.FullSamplesDitherWhite : Prop :=
  ∀ (cfg : DitherCfg) (G : Field) (x y : Nat), cfg.threshold ≤ 255 →
    (cfg.mode = .ordered8x8 → cfg.threshold ≤ 129) → preparedShape cfg.w cfg.h G →
    x < cfg.w → y < cfg.h → sampleAt G x y = 65280 →
    bitAt (ditherBits cfg G) x y = cfg.invert

/-! ## 43_pack.md -/

/-- Packing and unpacking undo each other, and the framed output holds the raster from byte 13 on (R405). -/
def Obligations.PackUnpackRoundTrip : Prop :=
  ∀ bpl h : Nat,
    (∀ B : Bits, B.length = h → (∀ row ∈ B, row.length = 8 * bpl) →
      unpackBits bpl h (packBits bpl B) = B ∧ (packBits bpl B).length = bpl * h) ∧
    (∀ ras : List Byte, ras.length = bpl * h →
      packBits bpl (unpackBits bpl h ras) = ras ∧ (unpackBits bpl h ras).length = h ∧
      ∀ row ∈ unpackBits bpl h ras, row.length = 8 * bpl) ∧
    (∀ ras : List Byte, ras.length = bpl * h →
      ((frameRaster ras bpl h).drop 13).take (bpl * h) = ras)
end

