-- ==== Sys2Proof/Laws/Address.lean ====
section
/-! SUPPORT. The addresses a job forms: the read set and the write set (20_memory.md R151, R161-R166). -/

namespace Sys2Proof.Machine

theorem wrapAddr_lt (n : Nat) : wrapAddr n < addressSpace := Nat.mod_lt _ (by decide)

theorem State.dstByteAddr_lt (s : State) (j : Nat) : s.dstByteAddr j < addressSpace := wrapAddr_lt _

theorem State.srcByteAddr_lt (s : State) (bpp x y c : Nat) :
    s.srcByteAddr bpp x y c < addressSpace := wrapAddr_lt _

@[simp] theorem State.length_dstAddrs (s : State) (n : Nat) : (s.dstAddrs n).length = n := by
  simp [State.dstAddrs]

@[simp] theorem State.getElem_dstAddrs (s : State) (n j : Nat) (h : j < (s.dstAddrs n).length) :
    (s.dstAddrs n)[j] = s.dstByteAddr j := by
  simp [State.dstAddrs]

theorem State.mem_dstAddrs {s : State} {n a : Nat} :
    a ∈ s.dstAddrs n ↔ ∃ j, j < n ∧ s.dstByteAddr j = a := by
  simp [State.dstAddrs]

theorem State.lt_of_mem_dstAddrs {s : State} {n a : Nat} (h : a ∈ s.dstAddrs n) :
    a < addressSpace := by
  obtain ⟨j, -, rfl⟩ := State.mem_dstAddrs.1 h
  exact s.dstByteAddr_lt j

/-- An output no longer than the address space names no address twice (20_memory.md R166,
40_commands.md R256). -/
theorem State.nodup_dstAddrs (s : State) {n : Nat} (hn : n ≤ addressSpace) : (s.dstAddrs n).Nodup := by
  refine (List.nodup_map_iff_inj_on List.nodup_range).2 fun i hi j hj h => ?_
  simp only [List.mem_range] at hi hj
  simp only [State.dstByteAddr, wrapAddr] at h
  have := s.dstAddr.isLt
  simp only [addressSpace] at *
  omega

/-- The two forms of the write set agree: by distance from `DST_ADDR`, and as a list. -/
theorem State.inDst_iff {s : State} {n a : Nat} (ha : a < addressSpace) (hn : n ≤ addressSpace) :
    s.inDst n a = true ↔ a ∈ s.dstAddrs n := by
  have hd := s.dstAddr.isLt
  simp only [State.inDst, decide_eq_true_eq, State.mem_dstAddrs, State.dstByteAddr, wrapAddr,
    addressSpace] at *
  constructor
  · intro h
    exact ⟨_, h, by omega⟩
  · rintro ⟨j, hj, rfl⟩
    omega

/-- The read set, byte by byte. -/
theorem State.mem_readSet {s : State} {k : JobKind} {a : Nat} :
    a ∈ s.readSet k ↔ ∃ y, y < s.height ∧ ∃ x, x < s.srcWidth ∧ ∃ c, c < s.bytesRead k ∧
      s.srcByteAddr (s.bytesRead k) x y c = a := by
  simp [State.readSet]

theorem State.lt_of_mem_readSet {s : State} {k : JobKind} {a : Nat} (h : a ∈ s.readSet k) :
    a < addressSpace := by
  obtain ⟨y, -, x, -, c, -, rfl⟩ := State.mem_readSet.1 h
  exact s.srcByteAddr_lt _ _ _ _

/-- `Bad`, element by element (60_exceptions.md R452). -/
theorem State.mem_badAddrs {s : State} {k : JobKind} {a : Nat} :
    a ∈ s.badAddrs k ↔ (a ∈ s.readSet k ∧ memAdmit s.plat .read a = false) ∨
      (a ∈ s.dstAddrs (s.outputLength k) ∧ memAdmit s.plat .write a = false) := by
  simp [State.badAddrs]

end Sys2Proof.Machine
end

