-- ==== Sys2Proof/Laws/Field.lean ====
section
/-! SUPPORT. Fields, the scan of a field, and the shapes they keep. -/

namespace Sys2Proof.Machine

/-- `h` rows of `w` values each. -/
def Shaped {α : Type} (w h : Nat) (F : List (List α)) : Prop :=
  F.length = h ∧ ∀ row ∈ F, row.length = w

theorem shaped_raster {α : Type} (w h : Nat) (f : Nat → Nat → α) : Shaped w h (raster w h f) := by
  constructor
  · simp [raster]
  · intro row hrow
    obtain ⟨y, -, rfl⟩ := List.mem_map.1 hrow
    simp

theorem sampleAt_raster {w h x y : Nat} (f : Nat → Nat → Int) (hx : x < w) (hy : y < h) :
    sampleAt (raster w h f) x y = f x y := by
  simp [sampleAt, raster, hx, hy]

theorem bitAt_raster {w h x y : Nat} (f : Nat → Nat → Bool) (hx : x < w) (hy : y < h) :
    bitAt (raster w h f) x y = f x y := by
  simp [bitAt, raster, hx, hy]

/-- The sample at the target gains the amount added. -/
theorem sampleAt_addSample_self {w h x y : Nat} {F : Field} {d : Int} (hF : Shaped w h F)
    (hx : x < w) (hy : y < h) : sampleAt (addSample F x y d) x y = sampleAt F x y + d := by
  have hy' : y < F.length := hF.1 ▸ hy
  have hx' : x < (F[y]'hy').length := by rw [hF.2 _ (List.getElem_mem hy')]; exact hx
  simp [sampleAt, addSample, List.getD_eq_getElem?_getD, hy', hx']

/-- Every other sample keeps its value. -/
theorem sampleAt_addSample_of_ne {x y x' y' : Nat} {F : Field} {d : Int} (h : x' ≠ x ∨ y' ≠ y) :
    sampleAt (addSample F x y d) x' y' = sampleAt F x' y' := by
  simp only [sampleAt, addSample, List.getD_eq_getElem?_getD, List.getElem?_modify]
  by_cases hy : y = y'
  · subst hy
    cases hF : F[y]? with
    | none => simp
    | some row =>
      have hx : x ≠ x' := by omega
      simp [hx]
  · simp [hy]

theorem shaped_addSample {w h x y : Nat} {F : Field} {d : Int} (hF : Shaped w h F) :
    Shaped w h (addSample F x y d) := by
  constructor
  · simp [addSample, hF.1]
  · intro row hrow
    obtain ⟨i, hi, rfl⟩ := List.getElem_of_mem hrow
    simp only [addSample, List.getElem_modify]
    split <;> simp [hF.2 _ (List.getElem_mem _)]

theorem shaped_diffuseOne {w h x y : Nat} {F : Field} {share : Int × Nat × Int} (hF : Shaped w h F) :
    Shaped w h (diffuseOne w h x y F share) := by
  simp only [diffuseOne]
  split
  · exact shaped_addSample hF
  · exact hF

theorem shaped_diffuse {w h x y : Nat} {shares : List (Int × Nat × Int)} {F : Field}
    (hF : Shaped w h F) : Shaped w h (diffuse w h x y F shares) := by
  induction shares generalizing F with
  | nil => exact hF
  | cons share shares ih => exact ih (shaped_diffuseOne hF)

@[simp] theorem scanRow_nil (cfg : DitherCfg) (y : Nat) (F : Field) : scanRow cfg y [] F = (F, []) := rfl

theorem scanRow_cons (cfg : DitherCfg) (y x : Nat) (xs : List Nat) (F : Field) :
    scanRow cfg y (x :: xs) F =
      ((scanRow cfg y xs (ditherBody cfg x y F).1).1,
        (ditherBody cfg x y F).2 :: (scanRow cfg y xs (ditherBody cfg x y F).1).2) := rfl

@[simp] theorem scanRows_nil (cfg : DitherCfg) (F : Field) : scanRows cfg [] F = (F, []) := rfl

theorem scanRows_cons (cfg : DitherCfg) (y : Nat) (ys : List Nat) (F : Field) :
    scanRows cfg (y :: ys) F =
      ((scanRows cfg ys (scanRow cfg y (List.range cfg.w) F).1).1,
        (scanRow cfg y (List.range cfg.w) F).2 ::
          (scanRows cfg ys (scanRow cfg y (List.range cfg.w) F).1).2) := rfl

theorem shaped_ditherBody {cfg : DitherCfg} {x y : Nat} {F : Field} (hF : Shaped cfg.w cfg.h F) :
    Shaped cfg.w cfg.h (ditherBody cfg x y F).1 := shaped_diffuse hF

theorem length_scanRow (cfg : DitherCfg) (y : Nat) (xs : List Nat) (F : Field) :
    (scanRow cfg y xs F).2.length = xs.length := by
  induction xs generalizing F with
  | nil => rfl
  | cons x xs ih => simp [scanRow_cons, ih]

theorem shaped_scanRow {cfg : DitherCfg} {y : Nat} {xs : List Nat} {F : Field}
    (hF : Shaped cfg.w cfg.h F) : Shaped cfg.w cfg.h (scanRow cfg y xs F).1 := by
  induction xs generalizing F with
  | nil => exact hF
  | cons x xs ih => exact ih (shaped_ditherBody hF)

theorem shaped_scanRows {cfg : DitherCfg} {ys : List Nat} {F : Field}
    (hF : Shaped cfg.w cfg.h F) : Shaped cfg.w cfg.h (scanRows cfg ys F).1 := by
  induction ys generalizing F with
  | nil => exact hF
  | cons y ys ih => exact ih (shaped_scanRow hF)

theorem shaped_bits_scanRows (cfg : DitherCfg) (ys : List Nat) (F : Field) :
    Shaped cfg.w ys.length (scanRows cfg ys F).2 := by
  induction ys generalizing F with
  | nil => exact ⟨rfl, by simp⟩
  | cons y ys ih =>
    obtain ⟨hl, hw⟩ := ih (scanRow cfg y (List.range cfg.w) F).1
    refine ⟨by simp [scanRows_cons, hl], fun row hrow => ?_⟩
    rcases List.mem_cons.1 hrow with rfl | hrow
    · simp [length_scanRow]
    · exact hw row hrow

/-- The dither stage answers `H` rows of `W` bits (42_dither.md R350). -/
theorem shaped_ditherBits (cfg : DitherCfg) (G : Field) : Shaped cfg.w cfg.h (ditherBits cfg G) := by
  have := shaped_bits_scanRows cfg (List.range cfg.h) G
  rwa [List.length_range] at this

end Sys2Proof.Machine
end

