-- ==== Sys2Proof/Laws/Memory.lean ====
section
/-! SUPPORT. The laws of system memory: read after write, and the canonical form every write keeps. -/

namespace Sys2Proof.Machine

@[simp] theorem readByte_nil (a : Nat) : readByte [] a = unlistedByte := rfl

@[simp] theorem readByte_cons (c : Host.Cell) (m : Memory) (a : Nat) :
    readByte (c :: m) a = if c.1 = a then c.2 else readByte m a := rfl

@[simp] theorem writeCells_nil (m : Memory) : writeCells m [] = m := rfl

@[simp] theorem writeCells_cons (m : Memory) (c : Host.Cell) (cells : List Host.Cell) :
    writeCells m (c :: cells) = writeCells (writeByte m c.1 c.2) cells := rfl

/-- The canonical form of a nonempty memory, as propositions. -/
theorem wf_cons {c : Host.Cell} {m : Memory} :
    Memory.wf (c :: m) = true ↔
      c.1 < addressSpace ∧ c.2 ≠ unlistedByte ∧ (∀ d ∈ m, c.1 < d.1) ∧ Memory.wf m = true := by
  simp [Memory.wf, and_assoc]

/-- An address no entry lists reads as an unlisted byte. -/
theorem readByte_of_not_mem {m : Memory} {a : Nat} (h : ∀ d ∈ m, d.1 ≠ a) :
    readByte m a = unlistedByte := by
  induction m with
  | nil => rfl
  | cons c m ih => simp_all

/-- Every entry of a memory after a write is an old one or the one written. -/
theorem mem_writeByte {m : Memory} {a : Nat} {v : Byte} {d : Host.Cell} (h : d ∈ writeByte m a v) :
    d ∈ m ∨ (d = (a, v) ∧ v ≠ unlistedByte) := by
  induction m with
  | nil => by_cases hv : v = unlistedByte <;> simp_all [writeByte]
  | cons c m ih =>
    unfold writeByte at h
    split at h
    · rcases List.mem_cons.1 h with h | h
      · simp [h]
      · rcases ih h with h | h <;> simp [h]
    · split at h
      · split at h
        · simp [h]
        · rcases List.mem_cons.1 h with h | h <;> simp_all
      · split at h
        · exact .inl h
        · rcases List.mem_cons.1 h with h | h <;> simp_all

/-- A write inside the address space keeps the canonical form. -/
theorem wf_writeByte {m : Memory} {a : Nat} {v : Byte} (ha : a < addressSpace)
    (h : Memory.wf m = true) : Memory.wf (writeByte m a v) = true := by
  induction m with
  | nil => by_cases hv : v = unlistedByte <;> simp_all [writeByte, Memory.wf]
  | cons c m ih =>
    obtain ⟨h1, h2, h3, h4⟩ := wf_cons.1 h
    unfold writeByte
    split
    · rename_i hlt
      refine wf_cons.2 ⟨h1, h2, fun d hd => ?_, ih h4⟩
      rcases mem_writeByte hd with hd | ⟨rfl, -⟩
      · exact h3 d hd
      · exact hlt
    · split
      · rename_i heq
        split
        · exact h4
        · rename_i hv
          exact wf_cons.2 ⟨ha, hv, fun d hd => heq ▸ h3 d hd, h4⟩
      · split
        · exact h
        · rename_i hge hne hv
          refine wf_cons.2 ⟨ha, hv, fun d hd => ?_, h⟩
          have hca : a < c.1 := by omega
          rcases List.mem_cons.1 hd with rfl | hd
          · exact hca
          · exact lt_trans hca (h3 d hd)

/-- Reading the address just written gives the byte written. -/
theorem readByte_writeByte_self {m : Memory} {a : Nat} {v : Byte} (h : Memory.wf m = true) :
    readByte (writeByte m a v) a = v := by
  induction m with
  | nil => by_cases hv : v = unlistedByte <;> simp_all [writeByte]
  | cons c m ih =>
    obtain ⟨-, -, h3, h4⟩ := wf_cons.1 h
    unfold writeByte
    split
    · rename_i hlt
      simp [Nat.ne_of_lt hlt, ih h4]
    · split
      · rename_i heq
        split
        · rename_i hv
          rw [hv]
          exact readByte_of_not_mem fun d hd => by have := h3 d hd; omega
        · simp
      · rename_i hge hne
        split
        · rename_i hv
          rw [hv]
          refine readByte_of_not_mem fun d hd => ?_
          rcases List.mem_cons.1 hd with rfl | hd
          · exact hne
          · have := h3 d hd
            omega
        · simp

/-- Reading any other address gives what it gave before. -/
theorem readByte_writeByte_of_ne {m : Memory} {a b : Nat} {v : Byte} (hab : b ≠ a) :
    readByte (writeByte m a v) b = readByte m b := by
  induction m with
  | nil => by_cases hv : v = unlistedByte <;> simp [writeByte, hv, hab.symm]
  | cons c m ih =>
    unfold writeByte
    split
    · simp [ih]
    · split
      · rename_i heq
        split <;> simp [heq, hab.symm]
      · split <;> simp [hab.symm]

/-- A list of writes inside the address space keeps the canonical form. -/
theorem wf_writeCells {cells : List Host.Cell} (hc : ∀ c ∈ cells, c.1 < addressSpace) {m : Memory}
    (h : Memory.wf m = true) : Memory.wf (writeCells m cells) = true := by
  induction cells generalizing m with
  | nil => exact h
  | cons c cells ih =>
    simp only [List.mem_cons, forall_eq_or_imp] at hc
    exact ih hc.2 (wf_writeByte hc.1 h)

/-- A list of writes leaves every address it does not name. -/
theorem readByte_writeCells_of_not_mem {cells : List Host.Cell} {a : Nat} {m : Memory}
    (h : ∀ c ∈ cells, c.1 ≠ a) : readByte (writeCells m cells) a = readByte m a := by
  induction cells generalizing m with
  | nil => rfl
  | cons c cells ih =>
    simp only [List.mem_cons, forall_eq_or_imp] at h
    rw [writeCells_cons, ih h.2, readByte_writeByte_of_ne h.1.symm]

/-- Writes to distinct addresses all land: each address reads as its byte. -/
theorem readByte_writeCells_of_mem {addrs : List Nat} {out : List Byte} {m : Memory}
    (hn : addrs.Nodup) (ha : ∀ a ∈ addrs, a < addressSpace) (h : Memory.wf m = true)
    {j : Nat} (hj : j < addrs.length) (hj' : j < out.length) :
    readByte (writeCells m (addrs.zip out)) addrs[j] = out[j] := by
  induction addrs generalizing out m j with
  | nil => simp at hj
  | cons a addrs ih =>
    cases out with
    | nil => simp at hj'
    | cons v out =>
      simp only [List.nodup_cons] at hn
      simp only [List.mem_cons, forall_eq_or_imp] at ha
      simp only [List.zip_cons_cons, writeCells_cons]
      cases j with
      | zero =>
        rw [List.getElem_cons_zero, List.getElem_cons_zero,
          readByte_writeCells_of_not_mem, readByte_writeByte_self h]
        intro c hc hca
        exact hn.1 (hca ▸ (List.of_mem_zip hc).1)
      | succ j =>
        simp only [List.getElem_cons_succ]
        exact ih hn.2 ha.2 (wf_writeByte ha.1 h) _ _

/-- Memory with nothing listed, as at reset, is in canonical form. -/
theorem wf_reset : Memory.wf State.reset.mem = true := rfl

end Sys2Proof.Machine
end

