-- ==== Sys2Proof/Laws/State.lean ====
section
/-! SUPPORT. What every named update does to every field of the state, one lemma each. -/

namespace Sys2Proof.Machine

variable (s : State)

@[simp] theorem State.clearStatus_ctrl (v : Word) : (s.clearStatus v).ctrl = s.ctrl := rfl
@[simp] theorem State.clearStatus_geom (v : Word) : (s.clearStatus v).geom = s.geom := rfl
@[simp] theorem State.clearStatus_srcAddr (v : Word) : (s.clearStatus v).srcAddr = s.srcAddr := rfl
@[simp] theorem State.clearStatus_srcStride (v : Word) : (s.clearStatus v).srcStride = s.srcStride := rfl
@[simp] theorem State.clearStatus_dstAddr (v : Word) : (s.clearStatus v).dstAddr = s.dstAddr := rfl
@[simp] theorem State.clearStatus_done (v : Word) : (s.clearStatus v).done = (s.done && !v.getLsbD 1) := rfl
@[simp] theorem State.clearStatus_err (v : Word) : (s.clearStatus v).err = (s.err && !v.getLsbD 2) := rfl
@[simp] theorem State.clearStatus_wign (v : Word) : (s.clearStatus v).wign = (s.wign && !v.getLsbD 3) := rfl
@[simp] theorem State.clearStatus_errcode (v : Word) : (s.clearStatus v).errcode = s.errcode := rfl
@[simp] theorem State.clearStatus_lastTag (v : Word) : (s.clearStatus v).lastTag = s.lastTag := rfl
@[simp] theorem State.clearStatus_outLen (v : Word) : (s.clearStatus v).outLen = s.outLen := rfl
@[simp] theorem State.clearStatus_faultAddr (v : Word) : (s.clearStatus v).faultAddr = s.faultAddr := rfl
@[simp] theorem State.clearStatus_lut (v : Word) : (s.clearStatus v).lut = s.lut := rfl
@[simp] theorem State.clearStatus_job (v : Word) : (s.clearStatus v).job = s.job := rfl
@[simp] theorem State.clearStatus_work (v : Word) : (s.clearStatus v).work = s.work := rfl
@[simp] theorem State.clearStatus_mem (v : Word) : (s.clearStatus v).mem = s.mem := rfl
@[simp] theorem State.clearStatus_plat (v : Word) : (s.clearStatus v).plat = s.plat := rfl
@[simp] theorem State.clearStatus_inputs (v : Word) : (s.clearStatus v).inputs = s.inputs := rfl
@[simp] theorem State.clearStatus_answers (v : Word) : (s.clearStatus v).answers = s.answers := rfl
@[simp] theorem State.clearStatus_fresh (v : Word) : (s.clearStatus v).fresh = s.fresh := rfl

@[simp] theorem State.ignoreWrite_ctrl : s.ignoreWrite.ctrl = s.ctrl := rfl
@[simp] theorem State.ignoreWrite_geom : s.ignoreWrite.geom = s.geom := rfl
@[simp] theorem State.ignoreWrite_srcAddr : s.ignoreWrite.srcAddr = s.srcAddr := rfl
@[simp] theorem State.ignoreWrite_srcStride : s.ignoreWrite.srcStride = s.srcStride := rfl
@[simp] theorem State.ignoreWrite_dstAddr : s.ignoreWrite.dstAddr = s.dstAddr := rfl
@[simp] theorem State.ignoreWrite_done : s.ignoreWrite.done = s.done := rfl
@[simp] theorem State.ignoreWrite_err : s.ignoreWrite.err = s.err := rfl
@[simp] theorem State.ignoreWrite_wign : s.ignoreWrite.wign = true := rfl
@[simp] theorem State.ignoreWrite_errcode : s.ignoreWrite.errcode = s.errcode := rfl
@[simp] theorem State.ignoreWrite_lastTag : s.ignoreWrite.lastTag = s.lastTag := rfl
@[simp] theorem State.ignoreWrite_outLen : s.ignoreWrite.outLen = s.outLen := rfl
@[simp] theorem State.ignoreWrite_faultAddr : s.ignoreWrite.faultAddr = s.faultAddr := rfl
@[simp] theorem State.ignoreWrite_lut : s.ignoreWrite.lut = s.lut := rfl
@[simp] theorem State.ignoreWrite_job : s.ignoreWrite.job = s.job := rfl
@[simp] theorem State.ignoreWrite_work : s.ignoreWrite.work = s.work := rfl
@[simp] theorem State.ignoreWrite_mem : s.ignoreWrite.mem = s.mem := rfl
@[simp] theorem State.ignoreWrite_plat : s.ignoreWrite.plat = s.plat := rfl
@[simp] theorem State.ignoreWrite_inputs : s.ignoreWrite.inputs = s.inputs := rfl
@[simp] theorem State.ignoreWrite_answers : s.ignoreWrite.answers = s.answers := rfl
@[simp] theorem State.ignoreWrite_fresh : s.ignoreWrite.fresh = s.fresh := rfl

@[simp] theorem State.accept_ctrl (w : Word) : (s.accept w).ctrl = s.ctrl := rfl
@[simp] theorem State.accept_geom (w : Word) : (s.accept w).geom = s.geom := rfl
@[simp] theorem State.accept_srcAddr (w : Word) : (s.accept w).srcAddr = s.srcAddr := rfl
@[simp] theorem State.accept_srcStride (w : Word) : (s.accept w).srcStride = s.srcStride := rfl
@[simp] theorem State.accept_dstAddr (w : Word) : (s.accept w).dstAddr = s.dstAddr := rfl
@[simp] theorem State.accept_done (w : Word) : (s.accept w).done = false := rfl
@[simp] theorem State.accept_err (w : Word) : (s.accept w).err = false := rfl
@[simp] theorem State.accept_wign (w : Word) : (s.accept w).wign = s.wign := rfl
@[simp] theorem State.accept_errcode (w : Word) : (s.accept w).errcode = s.errcode := rfl
@[simp] theorem State.accept_lastTag (w : Word) : (s.accept w).lastTag = s.lastTag := rfl
@[simp] theorem State.accept_outLen (w : Word) : (s.accept w).outLen = s.outLen := rfl
@[simp] theorem State.accept_faultAddr (w : Word) : (s.accept w).faultAddr = s.faultAddr := rfl
@[simp] theorem State.accept_lut (w : Word) : (s.accept w).lut = s.lut := rfl
@[simp] theorem State.accept_job (w : Word) : (s.accept w).job = some w := rfl
@[simp] theorem State.accept_work (w : Word) : (s.accept w).work = s.work := rfl
@[simp] theorem State.accept_mem (w : Word) : (s.accept w).mem = s.mem := rfl
@[simp] theorem State.accept_plat (w : Word) : (s.accept w).plat = s.plat := rfl
@[simp] theorem State.accept_inputs (w : Word) : (s.accept w).inputs = s.inputs := rfl
@[simp] theorem State.accept_answers (w : Word) : (s.accept w).answers = s.answers := rfl
@[simp] theorem State.accept_fresh (w : Word) : (s.accept w).fresh = s.fresh := rfl

@[simp] theorem State.retireOk_ctrl (tag : BitVec 8) (len : Nat) : (s.retireOk tag len).ctrl = s.ctrl := rfl
@[simp] theorem State.retireOk_geom (tag : BitVec 8) (len : Nat) : (s.retireOk tag len).geom = s.geom := rfl
@[simp] theorem State.retireOk_srcAddr (tag : BitVec 8) (len : Nat) : (s.retireOk tag len).srcAddr = s.srcAddr := rfl
@[simp] theorem State.retireOk_srcStride (tag : BitVec 8) (len : Nat) : (s.retireOk tag len).srcStride = s.srcStride := rfl
@[simp] theorem State.retireOk_dstAddr (tag : BitVec 8) (len : Nat) : (s.retireOk tag len).dstAddr = s.dstAddr := rfl
@[simp] theorem State.retireOk_done (tag : BitVec 8) (len : Nat) : (s.retireOk tag len).done = true := rfl
@[simp] theorem State.retireOk_err (tag : BitVec 8) (len : Nat) : (s.retireOk tag len).err = false := rfl
@[simp] theorem State.retireOk_wign (tag : BitVec 8) (len : Nat) : (s.retireOk tag len).wign = s.wign := rfl
@[simp] theorem State.retireOk_errcode (tag : BitVec 8) (len : Nat) : (s.retireOk tag len).errcode = 0#4 := rfl
@[simp] theorem State.retireOk_lastTag (tag : BitVec 8) (len : Nat) : (s.retireOk tag len).lastTag = tag := rfl
@[simp] theorem State.retireOk_outLen (tag : BitVec 8) (len : Nat) : (s.retireOk tag len).outLen = BitVec.ofNat 32 len := rfl
@[simp] theorem State.retireOk_faultAddr (tag : BitVec 8) (len : Nat) : (s.retireOk tag len).faultAddr = 0#32 := rfl
@[simp] theorem State.retireOk_lut (tag : BitVec 8) (len : Nat) : (s.retireOk tag len).lut = s.lut := rfl
@[simp] theorem State.retireOk_job (tag : BitVec 8) (len : Nat) : (s.retireOk tag len).job = none := rfl
@[simp] theorem State.retireOk_work (tag : BitVec 8) (len : Nat) : (s.retireOk tag len).work = none := rfl
@[simp] theorem State.retireOk_mem (tag : BitVec 8) (len : Nat) : (s.retireOk tag len).mem = s.mem := rfl
@[simp] theorem State.retireOk_plat (tag : BitVec 8) (len : Nat) : (s.retireOk tag len).plat = s.plat := rfl
@[simp] theorem State.retireOk_inputs (tag : BitVec 8) (len : Nat) : (s.retireOk tag len).inputs = s.inputs := rfl
@[simp] theorem State.retireOk_answers (tag : BitVec 8) (len : Nat) : (s.retireOk tag len).answers = s.answers := rfl
@[simp] theorem State.retireOk_fresh (tag : BitVec 8) (len : Nat) : (s.retireOk tag len).fresh = s.fresh := rfl

@[simp] theorem State.retireError_ctrl (tag : BitVec 8) (code : ErrCode) (info : Nat) : (s.retireError tag code info).ctrl = s.ctrl := rfl
@[simp] theorem State.retireError_geom (tag : BitVec 8) (code : ErrCode) (info : Nat) : (s.retireError tag code info).geom = s.geom := rfl
@[simp] theorem State.retireError_srcAddr (tag : BitVec 8) (code : ErrCode) (info : Nat) : (s.retireError tag code info).srcAddr = s.srcAddr := rfl
@[simp] theorem State.retireError_srcStride (tag : BitVec 8) (code : ErrCode) (info : Nat) : (s.retireError tag code info).srcStride = s.srcStride := rfl
@[simp] theorem State.retireError_dstAddr (tag : BitVec 8) (code : ErrCode) (info : Nat) : (s.retireError tag code info).dstAddr = s.dstAddr := rfl
@[simp] theorem State.retireError_done (tag : BitVec 8) (code : ErrCode) (info : Nat) : (s.retireError tag code info).done = true := rfl
@[simp] theorem State.retireError_err (tag : BitVec 8) (code : ErrCode) (info : Nat) : (s.retireError tag code info).err = true := rfl
@[simp] theorem State.retireError_wign (tag : BitVec 8) (code : ErrCode) (info : Nat) : (s.retireError tag code info).wign = s.wign := rfl
@[simp] theorem State.retireError_errcode (tag : BitVec 8) (code : ErrCode) (info : Nat) : (s.retireError tag code info).errcode = code.bits := rfl
@[simp] theorem State.retireError_lastTag (tag : BitVec 8) (code : ErrCode) (info : Nat) : (s.retireError tag code info).lastTag = tag := rfl
@[simp] theorem State.retireError_outLen (tag : BitVec 8) (code : ErrCode) (info : Nat) : (s.retireError tag code info).outLen = 0#32 := rfl
@[simp] theorem State.retireError_faultAddr (tag : BitVec 8) (code : ErrCode) (info : Nat) : (s.retireError tag code info).faultAddr = BitVec.ofNat 32 info := rfl
@[simp] theorem State.retireError_lut (tag : BitVec 8) (code : ErrCode) (info : Nat) : (s.retireError tag code info).lut = s.lut := rfl
@[simp] theorem State.retireError_job (tag : BitVec 8) (code : ErrCode) (info : Nat) : (s.retireError tag code info).job = none := rfl
@[simp] theorem State.retireError_work (tag : BitVec 8) (code : ErrCode) (info : Nat) : (s.retireError tag code info).work = none := rfl
@[simp] theorem State.retireError_mem (tag : BitVec 8) (code : ErrCode) (info : Nat) : (s.retireError tag code info).mem = s.mem := rfl
@[simp] theorem State.retireError_plat (tag : BitVec 8) (code : ErrCode) (info : Nat) : (s.retireError tag code info).plat = s.plat := rfl
@[simp] theorem State.retireError_inputs (tag : BitVec 8) (code : ErrCode) (info : Nat) : (s.retireError tag code info).inputs = s.inputs := rfl
@[simp] theorem State.retireError_answers (tag : BitVec 8) (code : ErrCode) (info : Nat) : (s.retireError tag code info).answers = s.answers := rfl
@[simp] theorem State.retireError_fresh (tag : BitVec 8) (code : ErrCode) (info : Nat) : (s.retireError tag code info).fresh = s.fresh := rfl

@[simp] theorem State.garble_ctrl (addrs : List Nat) : (s.garble addrs).ctrl = s.ctrl := rfl
@[simp] theorem State.garble_geom (addrs : List Nat) : (s.garble addrs).geom = s.geom := rfl
@[simp] theorem State.garble_srcAddr (addrs : List Nat) : (s.garble addrs).srcAddr = s.srcAddr := rfl
@[simp] theorem State.garble_srcStride (addrs : List Nat) : (s.garble addrs).srcStride = s.srcStride := rfl
@[simp] theorem State.garble_dstAddr (addrs : List Nat) : (s.garble addrs).dstAddr = s.dstAddr := rfl
@[simp] theorem State.garble_done (addrs : List Nat) : (s.garble addrs).done = s.done := rfl
@[simp] theorem State.garble_err (addrs : List Nat) : (s.garble addrs).err = s.err := rfl
@[simp] theorem State.garble_wign (addrs : List Nat) : (s.garble addrs).wign = s.wign := rfl
@[simp] theorem State.garble_errcode (addrs : List Nat) : (s.garble addrs).errcode = s.errcode := rfl
@[simp] theorem State.garble_lastTag (addrs : List Nat) : (s.garble addrs).lastTag = s.lastTag := rfl
@[simp] theorem State.garble_outLen (addrs : List Nat) : (s.garble addrs).outLen = s.outLen := rfl
@[simp] theorem State.garble_faultAddr (addrs : List Nat) : (s.garble addrs).faultAddr = s.faultAddr := rfl
@[simp] theorem State.garble_lut (addrs : List Nat) : (s.garble addrs).lut = s.lut := rfl
@[simp] theorem State.garble_job (addrs : List Nat) : (s.garble addrs).job = s.job := rfl
@[simp] theorem State.garble_work (addrs : List Nat) : (s.garble addrs).work = s.work := rfl
@[simp] theorem State.garble_mem (addrs : List Nat) : (s.garble addrs).mem = writeCells s.mem (addrs.zip (freeBytes s.fresh addrs.length)) := rfl
@[simp] theorem State.garble_plat (addrs : List Nat) : (s.garble addrs).plat = s.plat := rfl
@[simp] theorem State.garble_inputs (addrs : List Nat) : (s.garble addrs).inputs = s.inputs := rfl
@[simp] theorem State.garble_answers (addrs : List Nat) : (s.garble addrs).answers = s.answers := rfl
@[simp] theorem State.garble_fresh (addrs : List Nat) : (s.garble addrs).fresh = s.fresh + addrs.length := rfl

@[simp] theorem State.storeOutput_ctrl (out : List Byte) : (s.storeOutput out).ctrl = s.ctrl := rfl
@[simp] theorem State.storeOutput_geom (out : List Byte) : (s.storeOutput out).geom = s.geom := rfl
@[simp] theorem State.storeOutput_srcAddr (out : List Byte) : (s.storeOutput out).srcAddr = s.srcAddr := rfl
@[simp] theorem State.storeOutput_srcStride (out : List Byte) : (s.storeOutput out).srcStride = s.srcStride := rfl
@[simp] theorem State.storeOutput_dstAddr (out : List Byte) : (s.storeOutput out).dstAddr = s.dstAddr := rfl
@[simp] theorem State.storeOutput_done (out : List Byte) : (s.storeOutput out).done = s.done := rfl
@[simp] theorem State.storeOutput_err (out : List Byte) : (s.storeOutput out).err = s.err := rfl
@[simp] theorem State.storeOutput_wign (out : List Byte) : (s.storeOutput out).wign = s.wign := rfl
@[simp] theorem State.storeOutput_errcode (out : List Byte) : (s.storeOutput out).errcode = s.errcode := rfl
@[simp] theorem State.storeOutput_lastTag (out : List Byte) : (s.storeOutput out).lastTag = s.lastTag := rfl
@[simp] theorem State.storeOutput_outLen (out : List Byte) : (s.storeOutput out).outLen = s.outLen := rfl
@[simp] theorem State.storeOutput_faultAddr (out : List Byte) : (s.storeOutput out).faultAddr = s.faultAddr := rfl
@[simp] theorem State.storeOutput_lut (out : List Byte) : (s.storeOutput out).lut = s.lut := rfl
@[simp] theorem State.storeOutput_job (out : List Byte) : (s.storeOutput out).job = s.job := rfl
@[simp] theorem State.storeOutput_work (out : List Byte) : (s.storeOutput out).work = s.work := rfl
@[simp] theorem State.storeOutput_mem (out : List Byte) : (s.storeOutput out).mem = writeCells s.mem ((s.dstAddrs out.length).zip out) := rfl
@[simp] theorem State.storeOutput_plat (out : List Byte) : (s.storeOutput out).plat = s.plat := rfl
@[simp] theorem State.storeOutput_inputs (out : List Byte) : (s.storeOutput out).inputs = s.inputs := rfl
@[simp] theorem State.storeOutput_answers (out : List Byte) : (s.storeOutput out).answers = s.answers := rfl
@[simp] theorem State.storeOutput_fresh (out : List Byte) : (s.storeOutput out).fresh = s.fresh := rfl

@[simp] theorem State.answer_ctrl (a : Answer) : (s.answer a).ctrl = s.ctrl := rfl
@[simp] theorem State.answer_geom (a : Answer) : (s.answer a).geom = s.geom := rfl
@[simp] theorem State.answer_srcAddr (a : Answer) : (s.answer a).srcAddr = s.srcAddr := rfl
@[simp] theorem State.answer_srcStride (a : Answer) : (s.answer a).srcStride = s.srcStride := rfl
@[simp] theorem State.answer_dstAddr (a : Answer) : (s.answer a).dstAddr = s.dstAddr := rfl
@[simp] theorem State.answer_done (a : Answer) : (s.answer a).done = s.done := rfl
@[simp] theorem State.answer_err (a : Answer) : (s.answer a).err = s.err := rfl
@[simp] theorem State.answer_wign (a : Answer) : (s.answer a).wign = s.wign := rfl
@[simp] theorem State.answer_errcode (a : Answer) : (s.answer a).errcode = s.errcode := rfl
@[simp] theorem State.answer_lastTag (a : Answer) : (s.answer a).lastTag = s.lastTag := rfl
@[simp] theorem State.answer_outLen (a : Answer) : (s.answer a).outLen = s.outLen := rfl
@[simp] theorem State.answer_faultAddr (a : Answer) : (s.answer a).faultAddr = s.faultAddr := rfl
@[simp] theorem State.answer_lut (a : Answer) : (s.answer a).lut = s.lut := rfl
@[simp] theorem State.answer_job (a : Answer) : (s.answer a).job = s.job := rfl
@[simp] theorem State.answer_work (a : Answer) : (s.answer a).work = s.work := rfl
@[simp] theorem State.answer_mem (a : Answer) : (s.answer a).mem = s.mem := rfl
@[simp] theorem State.answer_plat (a : Answer) : (s.answer a).plat = s.plat := rfl
@[simp] theorem State.answer_inputs (a : Answer) : (s.answer a).inputs = s.inputs := rfl
@[simp] theorem State.answer_answers (a : Answer) : (s.answer a).answers = a :: s.answers := rfl
@[simp] theorem State.answer_fresh (a : Answer) : (s.answer a).fresh = s.fresh := rfl

@[simp] theorem State.setLut_ctrl (i : Fin 256) (v : Word) : (s.setLut i v).ctrl = s.ctrl := rfl
@[simp] theorem State.setLut_geom (i : Fin 256) (v : Word) : (s.setLut i v).geom = s.geom := rfl
@[simp] theorem State.setLut_srcAddr (i : Fin 256) (v : Word) : (s.setLut i v).srcAddr = s.srcAddr := rfl
@[simp] theorem State.setLut_srcStride (i : Fin 256) (v : Word) : (s.setLut i v).srcStride = s.srcStride := rfl
@[simp] theorem State.setLut_dstAddr (i : Fin 256) (v : Word) : (s.setLut i v).dstAddr = s.dstAddr := rfl
@[simp] theorem State.setLut_done (i : Fin 256) (v : Word) : (s.setLut i v).done = s.done := rfl
@[simp] theorem State.setLut_err (i : Fin 256) (v : Word) : (s.setLut i v).err = s.err := rfl
@[simp] theorem State.setLut_wign (i : Fin 256) (v : Word) : (s.setLut i v).wign = s.wign := rfl
@[simp] theorem State.setLut_errcode (i : Fin 256) (v : Word) : (s.setLut i v).errcode = s.errcode := rfl
@[simp] theorem State.setLut_lastTag (i : Fin 256) (v : Word) : (s.setLut i v).lastTag = s.lastTag := rfl
@[simp] theorem State.setLut_outLen (i : Fin 256) (v : Word) : (s.setLut i v).outLen = s.outLen := rfl
@[simp] theorem State.setLut_faultAddr (i : Fin 256) (v : Word) : (s.setLut i v).faultAddr = s.faultAddr := rfl
@[simp] theorem State.setLut_lut (i : Fin 256) (v : Word) : (s.setLut i v).lut = s.lut.set i.val { value := lutStored v, written := true } i.isLt := rfl
@[simp] theorem State.setLut_job (i : Fin 256) (v : Word) : (s.setLut i v).job = s.job := rfl
@[simp] theorem State.setLut_work (i : Fin 256) (v : Word) : (s.setLut i v).work = s.work := rfl
@[simp] theorem State.setLut_mem (i : Fin 256) (v : Word) : (s.setLut i v).mem = s.mem := rfl
@[simp] theorem State.setLut_plat (i : Fin 256) (v : Word) : (s.setLut i v).plat = s.plat := rfl
@[simp] theorem State.setLut_inputs (i : Fin 256) (v : Word) : (s.setLut i v).inputs = s.inputs := rfl
@[simp] theorem State.setLut_answers (i : Fin 256) (v : Word) : (s.setLut i v).answers = s.answers := rfl
@[simp] theorem State.setLut_fresh (i : Fin 256) (v : Word) : (s.setLut i v).fresh = s.fresh := rfl

@[simp] theorem State.setCtrl_ctrl (v : Word) : (s.setCtrl v).ctrl = v &&& ctrlMask := rfl
@[simp] theorem State.setCtrl_geom (v : Word) : (s.setCtrl v).geom = s.geom := rfl
@[simp] theorem State.setCtrl_srcAddr (v : Word) : (s.setCtrl v).srcAddr = s.srcAddr := rfl
@[simp] theorem State.setCtrl_srcStride (v : Word) : (s.setCtrl v).srcStride = s.srcStride := rfl
@[simp] theorem State.setCtrl_dstAddr (v : Word) : (s.setCtrl v).dstAddr = s.dstAddr := rfl
@[simp] theorem State.setCtrl_done (v : Word) : (s.setCtrl v).done = s.done := rfl
@[simp] theorem State.setCtrl_err (v : Word) : (s.setCtrl v).err = s.err := rfl
@[simp] theorem State.setCtrl_wign (v : Word) : (s.setCtrl v).wign = s.wign := rfl
@[simp] theorem State.setCtrl_errcode (v : Word) : (s.setCtrl v).errcode = s.errcode := rfl
@[simp] theorem State.setCtrl_lastTag (v : Word) : (s.setCtrl v).lastTag = s.lastTag := rfl
@[simp] theorem State.setCtrl_outLen (v : Word) : (s.setCtrl v).outLen = s.outLen := rfl
@[simp] theorem State.setCtrl_faultAddr (v : Word) : (s.setCtrl v).faultAddr = s.faultAddr := rfl
@[simp] theorem State.setCtrl_lut (v : Word) : (s.setCtrl v).lut = s.lut := rfl
@[simp] theorem State.setCtrl_job (v : Word) : (s.setCtrl v).job = s.job := rfl
@[simp] theorem State.setCtrl_work (v : Word) : (s.setCtrl v).work = s.work := rfl
@[simp] theorem State.setCtrl_mem (v : Word) : (s.setCtrl v).mem = s.mem := rfl
@[simp] theorem State.setCtrl_plat (v : Word) : (s.setCtrl v).plat = s.plat := rfl
@[simp] theorem State.setCtrl_inputs (v : Word) : (s.setCtrl v).inputs = s.inputs := rfl
@[simp] theorem State.setCtrl_answers (v : Word) : (s.setCtrl v).answers = s.answers := rfl
@[simp] theorem State.setCtrl_fresh (v : Word) : (s.setCtrl v).fresh = s.fresh := rfl

@[simp] theorem State.setGeom_ctrl (v : Word) : (s.setGeom v).ctrl = s.ctrl := rfl
@[simp] theorem State.setGeom_geom (v : Word) : (s.setGeom v).geom = v := rfl
@[simp] theorem State.setGeom_srcAddr (v : Word) : (s.setGeom v).srcAddr = s.srcAddr := rfl
@[simp] theorem State.setGeom_srcStride (v : Word) : (s.setGeom v).srcStride = s.srcStride := rfl
@[simp] theorem State.setGeom_dstAddr (v : Word) : (s.setGeom v).dstAddr = s.dstAddr := rfl
@[simp] theorem State.setGeom_done (v : Word) : (s.setGeom v).done = s.done := rfl
@[simp] theorem State.setGeom_err (v : Word) : (s.setGeom v).err = s.err := rfl
@[simp] theorem State.setGeom_wign (v : Word) : (s.setGeom v).wign = s.wign := rfl
@[simp] theorem State.setGeom_errcode (v : Word) : (s.setGeom v).errcode = s.errcode := rfl
@[simp] theorem State.setGeom_lastTag (v : Word) : (s.setGeom v).lastTag = s.lastTag := rfl
@[simp] theorem State.setGeom_outLen (v : Word) : (s.setGeom v).outLen = s.outLen := rfl
@[simp] theorem State.setGeom_faultAddr (v : Word) : (s.setGeom v).faultAddr = s.faultAddr := rfl
@[simp] theorem State.setGeom_lut (v : Word) : (s.setGeom v).lut = s.lut := rfl
@[simp] theorem State.setGeom_job (v : Word) : (s.setGeom v).job = s.job := rfl
@[simp] theorem State.setGeom_work (v : Word) : (s.setGeom v).work = s.work := rfl
@[simp] theorem State.setGeom_mem (v : Word) : (s.setGeom v).mem = s.mem := rfl
@[simp] theorem State.setGeom_plat (v : Word) : (s.setGeom v).plat = s.plat := rfl
@[simp] theorem State.setGeom_inputs (v : Word) : (s.setGeom v).inputs = s.inputs := rfl
@[simp] theorem State.setGeom_answers (v : Word) : (s.setGeom v).answers = s.answers := rfl
@[simp] theorem State.setGeom_fresh (v : Word) : (s.setGeom v).fresh = s.fresh := rfl

@[simp] theorem State.setSrcAddr_ctrl (v : Word) : (s.setSrcAddr v).ctrl = s.ctrl := rfl
@[simp] theorem State.setSrcAddr_geom (v : Word) : (s.setSrcAddr v).geom = s.geom := rfl
@[simp] theorem State.setSrcAddr_srcAddr (v : Word) : (s.setSrcAddr v).srcAddr = v := rfl
@[simp] theorem State.setSrcAddr_srcStride (v : Word) : (s.setSrcAddr v).srcStride = s.srcStride := rfl
@[simp] theorem State.setSrcAddr_dstAddr (v : Word) : (s.setSrcAddr v).dstAddr = s.dstAddr := rfl
@[simp] theorem State.setSrcAddr_done (v : Word) : (s.setSrcAddr v).done = s.done := rfl
@[simp] theorem State.setSrcAddr_err (v : Word) : (s.setSrcAddr v).err = s.err := rfl
@[simp] theorem State.setSrcAddr_wign (v : Word) : (s.setSrcAddr v).wign = s.wign := rfl
@[simp] theorem State.setSrcAddr_errcode (v : Word) : (s.setSrcAddr v).errcode = s.errcode := rfl
@[simp] theorem State.setSrcAddr_lastTag (v : Word) : (s.setSrcAddr v).lastTag = s.lastTag := rfl
@[simp] theorem State.setSrcAddr_outLen (v : Word) : (s.setSrcAddr v).outLen = s.outLen := rfl
@[simp] theorem State.setSrcAddr_faultAddr (v : Word) : (s.setSrcAddr v).faultAddr = s.faultAddr := rfl
@[simp] theorem State.setSrcAddr_lut (v : Word) : (s.setSrcAddr v).lut = s.lut := rfl
@[simp] theorem State.setSrcAddr_job (v : Word) : (s.setSrcAddr v).job = s.job := rfl
@[simp] theorem State.setSrcAddr_work (v : Word) : (s.setSrcAddr v).work = s.work := rfl
@[simp] theorem State.setSrcAddr_mem (v : Word) : (s.setSrcAddr v).mem = s.mem := rfl
@[simp] theorem State.setSrcAddr_plat (v : Word) : (s.setSrcAddr v).plat = s.plat := rfl
@[simp] theorem State.setSrcAddr_inputs (v : Word) : (s.setSrcAddr v).inputs = s.inputs := rfl
@[simp] theorem State.setSrcAddr_answers (v : Word) : (s.setSrcAddr v).answers = s.answers := rfl
@[simp] theorem State.setSrcAddr_fresh (v : Word) : (s.setSrcAddr v).fresh = s.fresh := rfl

@[simp] theorem State.setSrcStride_ctrl (v : Word) : (s.setSrcStride v).ctrl = s.ctrl := rfl
@[simp] theorem State.setSrcStride_geom (v : Word) : (s.setSrcStride v).geom = s.geom := rfl
@[simp] theorem State.setSrcStride_srcAddr (v : Word) : (s.setSrcStride v).srcAddr = s.srcAddr := rfl
@[simp] theorem State.setSrcStride_srcStride (v : Word) : (s.setSrcStride v).srcStride = v := rfl
@[simp] theorem State.setSrcStride_dstAddr (v : Word) : (s.setSrcStride v).dstAddr = s.dstAddr := rfl
@[simp] theorem State.setSrcStride_done (v : Word) : (s.setSrcStride v).done = s.done := rfl
@[simp] theorem State.setSrcStride_err (v : Word) : (s.setSrcStride v).err = s.err := rfl
@[simp] theorem State.setSrcStride_wign (v : Word) : (s.setSrcStride v).wign = s.wign := rfl
@[simp] theorem State.setSrcStride_errcode (v : Word) : (s.setSrcStride v).errcode = s.errcode := rfl
@[simp] theorem State.setSrcStride_lastTag (v : Word) : (s.setSrcStride v).lastTag = s.lastTag := rfl
@[simp] theorem State.setSrcStride_outLen (v : Word) : (s.setSrcStride v).outLen = s.outLen := rfl
@[simp] theorem State.setSrcStride_faultAddr (v : Word) : (s.setSrcStride v).faultAddr = s.faultAddr := rfl
@[simp] theorem State.setSrcStride_lut (v : Word) : (s.setSrcStride v).lut = s.lut := rfl
@[simp] theorem State.setSrcStride_job (v : Word) : (s.setSrcStride v).job = s.job := rfl
@[simp] theorem State.setSrcStride_work (v : Word) : (s.setSrcStride v).work = s.work := rfl
@[simp] theorem State.setSrcStride_mem (v : Word) : (s.setSrcStride v).mem = s.mem := rfl
@[simp] theorem State.setSrcStride_plat (v : Word) : (s.setSrcStride v).plat = s.plat := rfl
@[simp] theorem State.setSrcStride_inputs (v : Word) : (s.setSrcStride v).inputs = s.inputs := rfl
@[simp] theorem State.setSrcStride_answers (v : Word) : (s.setSrcStride v).answers = s.answers := rfl
@[simp] theorem State.setSrcStride_fresh (v : Word) : (s.setSrcStride v).fresh = s.fresh := rfl

@[simp] theorem State.setDstAddr_ctrl (v : Word) : (s.setDstAddr v).ctrl = s.ctrl := rfl
@[simp] theorem State.setDstAddr_geom (v : Word) : (s.setDstAddr v).geom = s.geom := rfl
@[simp] theorem State.setDstAddr_srcAddr (v : Word) : (s.setDstAddr v).srcAddr = s.srcAddr := rfl
@[simp] theorem State.setDstAddr_srcStride (v : Word) : (s.setDstAddr v).srcStride = s.srcStride := rfl
@[simp] theorem State.setDstAddr_dstAddr (v : Word) : (s.setDstAddr v).dstAddr = v := rfl
@[simp] theorem State.setDstAddr_done (v : Word) : (s.setDstAddr v).done = s.done := rfl
@[simp] theorem State.setDstAddr_err (v : Word) : (s.setDstAddr v).err = s.err := rfl
@[simp] theorem State.setDstAddr_wign (v : Word) : (s.setDstAddr v).wign = s.wign := rfl
@[simp] theorem State.setDstAddr_errcode (v : Word) : (s.setDstAddr v).errcode = s.errcode := rfl
@[simp] theorem State.setDstAddr_lastTag (v : Word) : (s.setDstAddr v).lastTag = s.lastTag := rfl
@[simp] theorem State.setDstAddr_outLen (v : Word) : (s.setDstAddr v).outLen = s.outLen := rfl
@[simp] theorem State.setDstAddr_faultAddr (v : Word) : (s.setDstAddr v).faultAddr = s.faultAddr := rfl
@[simp] theorem State.setDstAddr_lut (v : Word) : (s.setDstAddr v).lut = s.lut := rfl
@[simp] theorem State.setDstAddr_job (v : Word) : (s.setDstAddr v).job = s.job := rfl
@[simp] theorem State.setDstAddr_work (v : Word) : (s.setDstAddr v).work = s.work := rfl
@[simp] theorem State.setDstAddr_mem (v : Word) : (s.setDstAddr v).mem = s.mem := rfl
@[simp] theorem State.setDstAddr_plat (v : Word) : (s.setDstAddr v).plat = s.plat := rfl
@[simp] theorem State.setDstAddr_inputs (v : Word) : (s.setDstAddr v).inputs = s.inputs := rfl
@[simp] theorem State.setDstAddr_answers (v : Word) : (s.setDstAddr v).answers = s.answers := rfl
@[simp] theorem State.setDstAddr_fresh (v : Word) : (s.setDstAddr v).fresh = s.fresh := rfl

@[simp] theorem State.readReg_ctrl (offset : Nat) : (s.readReg offset).ctrl = s.ctrl := rfl
@[simp] theorem State.readReg_geom (offset : Nat) : (s.readReg offset).geom = s.geom := rfl
@[simp] theorem State.readReg_srcAddr (offset : Nat) : (s.readReg offset).srcAddr = s.srcAddr := rfl
@[simp] theorem State.readReg_srcStride (offset : Nat) : (s.readReg offset).srcStride = s.srcStride := rfl
@[simp] theorem State.readReg_dstAddr (offset : Nat) : (s.readReg offset).dstAddr = s.dstAddr := rfl
@[simp] theorem State.readReg_done (offset : Nat) : (s.readReg offset).done = s.done := rfl
@[simp] theorem State.readReg_err (offset : Nat) : (s.readReg offset).err = s.err := rfl
@[simp] theorem State.readReg_wign (offset : Nat) : (s.readReg offset).wign = s.wign := rfl
@[simp] theorem State.readReg_errcode (offset : Nat) : (s.readReg offset).errcode = s.errcode := rfl
@[simp] theorem State.readReg_lastTag (offset : Nat) : (s.readReg offset).lastTag = s.lastTag := rfl
@[simp] theorem State.readReg_outLen (offset : Nat) : (s.readReg offset).outLen = s.outLen := rfl
@[simp] theorem State.readReg_faultAddr (offset : Nat) : (s.readReg offset).faultAddr = s.faultAddr := rfl
@[simp] theorem State.readReg_lut (offset : Nat) : (s.readReg offset).lut = s.lut := rfl
@[simp] theorem State.readReg_job (offset : Nat) : (s.readReg offset).job = s.job := rfl
@[simp] theorem State.readReg_work (offset : Nat) : (s.readReg offset).work = s.work := rfl
@[simp] theorem State.readReg_mem (offset : Nat) : (s.readReg offset).mem = s.mem := rfl
@[simp] theorem State.readReg_plat (offset : Nat) : (s.readReg offset).plat = s.plat := rfl
@[simp] theorem State.readReg_inputs (offset : Nat) : (s.readReg offset).inputs = s.inputs := rfl
@[simp] theorem State.readReg_answers (offset : Nat) : (s.readReg offset).answers = .reg offset (s.regValue (regAt offset)) :: s.answers := rfl
@[simp] theorem State.readReg_fresh (offset : Nat) : (s.readReg offset).fresh = s.fresh + s.freshUsedBy (regAt offset) := rfl

@[simp] theorem State.latched_ctrl (w : Word) : (s.latched w).ctrl = s.ctrl := rfl
@[simp] theorem State.latched_geom (w : Word) : (s.latched w).geom = s.geom := rfl
@[simp] theorem State.latched_srcAddr (w : Word) : (s.latched w).srcAddr = s.srcAddr := rfl
@[simp] theorem State.latched_srcStride (w : Word) : (s.latched w).srcStride = s.srcStride := rfl
@[simp] theorem State.latched_dstAddr (w : Word) : (s.latched w).dstAddr = s.dstAddr := rfl
@[simp] theorem State.latched_done (w : Word) : (s.latched w).done = s.done := rfl
@[simp] theorem State.latched_err (w : Word) : (s.latched w).err = s.err := rfl
@[simp] theorem State.latched_wign (w : Word) : (s.latched w).wign = s.wign := rfl
@[simp] theorem State.latched_errcode (w : Word) : (s.latched w).errcode = s.errcode := rfl
@[simp] theorem State.latched_lastTag (w : Word) : (s.latched w).lastTag = s.lastTag := rfl
@[simp] theorem State.latched_outLen (w : Word) : (s.latched w).outLen = s.outLen := rfl
@[simp] theorem State.latched_faultAddr (w : Word) : (s.latched w).faultAddr = s.faultAddr := rfl
@[simp] theorem State.latched_lut (w : Word) : (s.latched w).lut = s.lut := rfl
@[simp] theorem State.latched_job (w : Word) : (s.latched w).job = some w := rfl
@[simp] theorem State.latched_work (w : Word) : (s.latched w).work = s.work := rfl
@[simp] theorem State.latched_mem (w : Word) : (s.latched w).mem = s.mem := rfl
@[simp] theorem State.latched_plat (w : Word) : (s.latched w).plat = s.plat := rfl
@[simp] theorem State.latched_inputs (w : Word) : (s.latched w).inputs = .engine :: s.inputs := rfl
@[simp] theorem State.latched_answers (w : Word) : (s.latched w).answers = s.answers := rfl
@[simp] theorem State.latched_fresh (w : Word) : (s.latched w).fresh = s.fresh := rfl

@[simp] theorem State.clearStatus_mode (v : Word) : (s.clearStatus v).mode = s.mode := rfl
@[simp] theorem State.clearStatus_invert (v : Word) : (s.clearStatus v).invert = s.invert := rfl
@[simp] theorem State.clearStatus_sharpen (v : Word) : (s.clearStatus v).sharpen = s.sharpen := rfl
@[simp] theorem State.clearStatus_frame (v : Word) : (s.clearStatus v).frame = s.frame := rfl
@[simp] theorem State.clearStatus_infmt (v : Word) : (s.clearStatus v).infmt = s.infmt := rfl
@[simp] theorem State.clearStatus_threshold (v : Word) : (s.clearStatus v).threshold = s.threshold := rfl
@[simp] theorem State.clearStatus_irqEn (v : Word) : (s.clearStatus v).irqEn = s.irqEn := rfl
@[simp] theorem State.clearStatus_srcWidth (v : Word) : (s.clearStatus v).srcWidth = s.srcWidth := rfl
@[simp] theorem State.clearStatus_height (v : Word) : (s.clearStatus v).height = s.height := rfl
@[simp] theorem State.clearStatus_paddedWidth (v : Word) : (s.clearStatus v).paddedWidth = s.paddedWidth := rfl
@[simp] theorem State.clearStatus_bytesPerLine (v : Word) : (s.clearStatus v).bytesPerLine = s.bytesPerLine := rfl
@[simp] theorem State.clearStatus_rasterLength (v : Word) : (s.clearStatus v).rasterLength = s.rasterLength := rfl
@[simp] theorem State.clearStatus_ditherCfg (v : Word) : (s.clearStatus v).ditherCfg = s.ditherCfg := rfl

@[simp] theorem State.ignoreWrite_mode : s.ignoreWrite.mode = s.mode := rfl
@[simp] theorem State.ignoreWrite_invert : s.ignoreWrite.invert = s.invert := rfl
@[simp] theorem State.ignoreWrite_sharpen : s.ignoreWrite.sharpen = s.sharpen := rfl
@[simp] theorem State.ignoreWrite_frame : s.ignoreWrite.frame = s.frame := rfl
@[simp] theorem State.ignoreWrite_infmt : s.ignoreWrite.infmt = s.infmt := rfl
@[simp] theorem State.ignoreWrite_threshold : s.ignoreWrite.threshold = s.threshold := rfl
@[simp] theorem State.ignoreWrite_irqEn : s.ignoreWrite.irqEn = s.irqEn := rfl
@[simp] theorem State.ignoreWrite_srcWidth : s.ignoreWrite.srcWidth = s.srcWidth := rfl
@[simp] theorem State.ignoreWrite_height : s.ignoreWrite.height = s.height := rfl
@[simp] theorem State.ignoreWrite_paddedWidth : s.ignoreWrite.paddedWidth = s.paddedWidth := rfl
@[simp] theorem State.ignoreWrite_bytesPerLine : s.ignoreWrite.bytesPerLine = s.bytesPerLine := rfl
@[simp] theorem State.ignoreWrite_rasterLength : s.ignoreWrite.rasterLength = s.rasterLength := rfl
@[simp] theorem State.ignoreWrite_ditherCfg : s.ignoreWrite.ditherCfg = s.ditherCfg := rfl

@[simp] theorem State.accept_mode (w : Word) : (s.accept w).mode = s.mode := rfl
@[simp] theorem State.accept_invert (w : Word) : (s.accept w).invert = s.invert := rfl
@[simp] theorem State.accept_sharpen (w : Word) : (s.accept w).sharpen = s.sharpen := rfl
@[simp] theorem State.accept_frame (w : Word) : (s.accept w).frame = s.frame := rfl
@[simp] theorem State.accept_infmt (w : Word) : (s.accept w).infmt = s.infmt := rfl
@[simp] theorem State.accept_threshold (w : Word) : (s.accept w).threshold = s.threshold := rfl
@[simp] theorem State.accept_irqEn (w : Word) : (s.accept w).irqEn = s.irqEn := rfl
@[simp] theorem State.accept_srcWidth (w : Word) : (s.accept w).srcWidth = s.srcWidth := rfl
@[simp] theorem State.accept_height (w : Word) : (s.accept w).height = s.height := rfl
@[simp] theorem State.accept_paddedWidth (w : Word) : (s.accept w).paddedWidth = s.paddedWidth := rfl
@[simp] theorem State.accept_bytesPerLine (w : Word) : (s.accept w).bytesPerLine = s.bytesPerLine := rfl
@[simp] theorem State.accept_rasterLength (w : Word) : (s.accept w).rasterLength = s.rasterLength := rfl
@[simp] theorem State.accept_ditherCfg (w : Word) : (s.accept w).ditherCfg = s.ditherCfg := rfl

@[simp] theorem State.retireOk_mode (tag : BitVec 8) (len : Nat) : (s.retireOk tag len).mode = s.mode := rfl
@[simp] theorem State.retireOk_invert (tag : BitVec 8) (len : Nat) : (s.retireOk tag len).invert = s.invert := rfl
@[simp] theorem State.retireOk_sharpen (tag : BitVec 8) (len : Nat) : (s.retireOk tag len).sharpen = s.sharpen := rfl
@[simp] theorem State.retireOk_frame (tag : BitVec 8) (len : Nat) : (s.retireOk tag len).frame = s.frame := rfl
@[simp] theorem State.retireOk_infmt (tag : BitVec 8) (len : Nat) : (s.retireOk tag len).infmt = s.infmt := rfl
@[simp] theorem State.retireOk_threshold (tag : BitVec 8) (len : Nat) : (s.retireOk tag len).threshold = s.threshold := rfl
@[simp] theorem State.retireOk_irqEn (tag : BitVec 8) (len : Nat) : (s.retireOk tag len).irqEn = s.irqEn := rfl
@[simp] theorem State.retireOk_srcWidth (tag : BitVec 8) (len : Nat) : (s.retireOk tag len).srcWidth = s.srcWidth := rfl
@[simp] theorem State.retireOk_height (tag : BitVec 8) (len : Nat) : (s.retireOk tag len).height = s.height := rfl
@[simp] theorem State.retireOk_paddedWidth (tag : BitVec 8) (len : Nat) : (s.retireOk tag len).paddedWidth = s.paddedWidth := rfl
@[simp] theorem State.retireOk_bytesPerLine (tag : BitVec 8) (len : Nat) : (s.retireOk tag len).bytesPerLine = s.bytesPerLine := rfl
@[simp] theorem State.retireOk_rasterLength (tag : BitVec 8) (len : Nat) : (s.retireOk tag len).rasterLength = s.rasterLength := rfl
@[simp] theorem State.retireOk_ditherCfg (tag : BitVec 8) (len : Nat) : (s.retireOk tag len).ditherCfg = s.ditherCfg := rfl

@[simp] theorem State.retireError_mode (tag : BitVec 8) (code : ErrCode) (info : Nat) : (s.retireError tag code info).mode = s.mode := rfl
@[simp] theorem State.retireError_invert (tag : BitVec 8) (code : ErrCode) (info : Nat) : (s.retireError tag code info).invert = s.invert := rfl
@[simp] theorem State.retireError_sharpen (tag : BitVec 8) (code : ErrCode) (info : Nat) : (s.retireError tag code info).sharpen = s.sharpen := rfl
@[simp] theorem State.retireError_frame (tag : BitVec 8) (code : ErrCode) (info : Nat) : (s.retireError tag code info).frame = s.frame := rfl
@[simp] theorem State.retireError_infmt (tag : BitVec 8) (code : ErrCode) (info : Nat) : (s.retireError tag code info).infmt = s.infmt := rfl
@[simp] theorem State.retireError_threshold (tag : BitVec 8) (code : ErrCode) (info : Nat) : (s.retireError tag code info).threshold = s.threshold := rfl
@[simp] theorem State.retireError_irqEn (tag : BitVec 8) (code : ErrCode) (info : Nat) : (s.retireError tag code info).irqEn = s.irqEn := rfl
@[simp] theorem State.retireError_srcWidth (tag : BitVec 8) (code : ErrCode) (info : Nat) : (s.retireError tag code info).srcWidth = s.srcWidth := rfl
@[simp] theorem State.retireError_height (tag : BitVec 8) (code : ErrCode) (info : Nat) : (s.retireError tag code info).height = s.height := rfl
@[simp] theorem State.retireError_paddedWidth (tag : BitVec 8) (code : ErrCode) (info : Nat) : (s.retireError tag code info).paddedWidth = s.paddedWidth := rfl
@[simp] theorem State.retireError_bytesPerLine (tag : BitVec 8) (code : ErrCode) (info : Nat) : (s.retireError tag code info).bytesPerLine = s.bytesPerLine := rfl
@[simp] theorem State.retireError_rasterLength (tag : BitVec 8) (code : ErrCode) (info : Nat) : (s.retireError tag code info).rasterLength = s.rasterLength := rfl
@[simp] theorem State.retireError_ditherCfg (tag : BitVec 8) (code : ErrCode) (info : Nat) : (s.retireError tag code info).ditherCfg = s.ditherCfg := rfl

@[simp] theorem State.garble_mode (addrs : List Nat) : (s.garble addrs).mode = s.mode := rfl
@[simp] theorem State.garble_invert (addrs : List Nat) : (s.garble addrs).invert = s.invert := rfl
@[simp] theorem State.garble_sharpen (addrs : List Nat) : (s.garble addrs).sharpen = s.sharpen := rfl
@[simp] theorem State.garble_frame (addrs : List Nat) : (s.garble addrs).frame = s.frame := rfl
@[simp] theorem State.garble_infmt (addrs : List Nat) : (s.garble addrs).infmt = s.infmt := rfl
@[simp] theorem State.garble_threshold (addrs : List Nat) : (s.garble addrs).threshold = s.threshold := rfl
@[simp] theorem State.garble_irqEn (addrs : List Nat) : (s.garble addrs).irqEn = s.irqEn := rfl
@[simp] theorem State.garble_srcWidth (addrs : List Nat) : (s.garble addrs).srcWidth = s.srcWidth := rfl
@[simp] theorem State.garble_height (addrs : List Nat) : (s.garble addrs).height = s.height := rfl
@[simp] theorem State.garble_paddedWidth (addrs : List Nat) : (s.garble addrs).paddedWidth = s.paddedWidth := rfl
@[simp] theorem State.garble_bytesPerLine (addrs : List Nat) : (s.garble addrs).bytesPerLine = s.bytesPerLine := rfl
@[simp] theorem State.garble_rasterLength (addrs : List Nat) : (s.garble addrs).rasterLength = s.rasterLength := rfl
@[simp] theorem State.garble_ditherCfg (addrs : List Nat) : (s.garble addrs).ditherCfg = s.ditherCfg := rfl

@[simp] theorem State.storeOutput_mode (out : List Byte) : (s.storeOutput out).mode = s.mode := rfl
@[simp] theorem State.storeOutput_invert (out : List Byte) : (s.storeOutput out).invert = s.invert := rfl
@[simp] theorem State.storeOutput_sharpen (out : List Byte) : (s.storeOutput out).sharpen = s.sharpen := rfl
@[simp] theorem State.storeOutput_frame (out : List Byte) : (s.storeOutput out).frame = s.frame := rfl
@[simp] theorem State.storeOutput_infmt (out : List Byte) : (s.storeOutput out).infmt = s.infmt := rfl
@[simp] theorem State.storeOutput_threshold (out : List Byte) : (s.storeOutput out).threshold = s.threshold := rfl
@[simp] theorem State.storeOutput_irqEn (out : List Byte) : (s.storeOutput out).irqEn = s.irqEn := rfl
@[simp] theorem State.storeOutput_srcWidth (out : List Byte) : (s.storeOutput out).srcWidth = s.srcWidth := rfl
@[simp] theorem State.storeOutput_height (out : List Byte) : (s.storeOutput out).height = s.height := rfl
@[simp] theorem State.storeOutput_paddedWidth (out : List Byte) : (s.storeOutput out).paddedWidth = s.paddedWidth := rfl
@[simp] theorem State.storeOutput_bytesPerLine (out : List Byte) : (s.storeOutput out).bytesPerLine = s.bytesPerLine := rfl
@[simp] theorem State.storeOutput_rasterLength (out : List Byte) : (s.storeOutput out).rasterLength = s.rasterLength := rfl
@[simp] theorem State.storeOutput_ditherCfg (out : List Byte) : (s.storeOutput out).ditherCfg = s.ditherCfg := rfl

@[simp] theorem State.answer_mode (a : Answer) : (s.answer a).mode = s.mode := rfl
@[simp] theorem State.answer_invert (a : Answer) : (s.answer a).invert = s.invert := rfl
@[simp] theorem State.answer_sharpen (a : Answer) : (s.answer a).sharpen = s.sharpen := rfl
@[simp] theorem State.answer_frame (a : Answer) : (s.answer a).frame = s.frame := rfl
@[simp] theorem State.answer_infmt (a : Answer) : (s.answer a).infmt = s.infmt := rfl
@[simp] theorem State.answer_threshold (a : Answer) : (s.answer a).threshold = s.threshold := rfl
@[simp] theorem State.answer_irqEn (a : Answer) : (s.answer a).irqEn = s.irqEn := rfl
@[simp] theorem State.answer_srcWidth (a : Answer) : (s.answer a).srcWidth = s.srcWidth := rfl
@[simp] theorem State.answer_height (a : Answer) : (s.answer a).height = s.height := rfl
@[simp] theorem State.answer_paddedWidth (a : Answer) : (s.answer a).paddedWidth = s.paddedWidth := rfl
@[simp] theorem State.answer_bytesPerLine (a : Answer) : (s.answer a).bytesPerLine = s.bytesPerLine := rfl
@[simp] theorem State.answer_rasterLength (a : Answer) : (s.answer a).rasterLength = s.rasterLength := rfl
@[simp] theorem State.answer_ditherCfg (a : Answer) : (s.answer a).ditherCfg = s.ditherCfg := rfl

@[simp] theorem State.resetEvent_ctrl : s.resetEvent.ctrl = State.reset.ctrl := rfl
@[simp] theorem State.resetEvent_geom : s.resetEvent.geom = State.reset.geom := rfl
@[simp] theorem State.resetEvent_srcAddr : s.resetEvent.srcAddr = State.reset.srcAddr := rfl
@[simp] theorem State.resetEvent_srcStride : s.resetEvent.srcStride = State.reset.srcStride := rfl
@[simp] theorem State.resetEvent_dstAddr : s.resetEvent.dstAddr = State.reset.dstAddr := rfl
@[simp] theorem State.resetEvent_done : s.resetEvent.done = State.reset.done := rfl
@[simp] theorem State.resetEvent_err : s.resetEvent.err = State.reset.err := rfl
@[simp] theorem State.resetEvent_wign : s.resetEvent.wign = State.reset.wign := rfl
@[simp] theorem State.resetEvent_errcode : s.resetEvent.errcode = State.reset.errcode := rfl
@[simp] theorem State.resetEvent_lastTag : s.resetEvent.lastTag = State.reset.lastTag := rfl
@[simp] theorem State.resetEvent_outLen : s.resetEvent.outLen = State.reset.outLen := rfl
@[simp] theorem State.resetEvent_faultAddr : s.resetEvent.faultAddr = State.reset.faultAddr := rfl
@[simp] theorem State.resetEvent_lut : s.resetEvent.lut = State.reset.lut := rfl
@[simp] theorem State.resetEvent_job : s.resetEvent.job = State.reset.job := rfl
@[simp] theorem State.resetEvent_work : s.resetEvent.work = State.reset.work := rfl
@[simp] theorem State.resetEvent_mem : s.resetEvent.mem = (s.garble s.runningWrites).mem := rfl
@[simp] theorem State.resetEvent_plat : s.resetEvent.plat = s.plat := rfl
@[simp] theorem State.resetEvent_inputs : s.resetEvent.inputs = s.inputs := rfl
@[simp] theorem State.resetEvent_answers : s.resetEvent.answers = s.answers := rfl
@[simp] theorem State.resetEvent_fresh : s.resetEvent.fresh = s.fresh + s.runningWrites.length := rfl

end Sys2Proof.Machine
end

