-- ==== Sys2Proof/Laws/Job.lean ====
section
/-! SUPPORT. Everything a job's shared operations can do, said once. -/

namespace Sys2Proof.Machine

@[simp] theorem length_freeBytes (first n : Nat) : (freeBytes first n).length = n := by
  simp [freeBytes]

/-- Unspecified bytes fall on the given addresses and on no other. -/
theorem State.readByte_garble_of_not_mem {s : State} {addrs : List Nat} {a : Nat} (h : a ∉ addrs) :
    readByte (s.garble addrs).mem a = readByte s.mem a := by
  refine readByte_writeCells_of_not_mem fun c hc hca => h ?_
  exact hca ▸ (List.of_mem_zip hc).1

/-- Each of the given addresses, all distinct, takes the next free byte (log 5). -/
theorem State.readByte_garble {s : State} {addrs : List Nat} (hn : addrs.Nodup)
    (ha : ∀ a ∈ addrs, a < addressSpace) (h : Memory.wf s.mem = true) {j : Nat}
    (hj : j < addrs.length) :
    readByte (s.garble addrs).mem addrs[j] = Config.freeByte (s.fresh + j) := by
  have := readByte_writeCells_of_mem hn ha h hj (out := freeBytes s.fresh addrs.length)
    (by simpa using hj)
  simpa [State.garble, freeBytes] using this

theorem State.wf_garble {s : State} {addrs : List Nat} (ha : ∀ a ∈ addrs, a < addressSpace)
    (h : Memory.wf s.mem = true) : Memory.wf (s.garble addrs).mem = true :=
  wf_writeCells (fun _ hc => ha _ (List.of_mem_zip hc).1) h

/-- Output bytes fall on the write set and on no other address (20_memory.md R166). -/
theorem State.readByte_storeOutput_of_not_mem {s : State} {out : List Byte} {a : Nat}
    (h : a ∉ s.dstAddrs out.length) : readByte (s.storeOutput out).mem a = readByte s.mem a := by
  refine readByte_writeCells_of_not_mem fun c hc hca => h ?_
  exact hca ▸ (List.of_mem_zip hc).1

/-- Output byte `j` goes to `(DST_ADDR + j) mod 2^32` (20_memory.md R166). -/
theorem State.readByte_storeOutput {s : State} {out : List Byte} (hn : out.length ≤ addressSpace)
    (h : Memory.wf s.mem = true) {j : Nat} (hj : j < out.length) :
    readByte (s.storeOutput out).mem (s.dstByteAddr j) = out[j] := by
  have := readByte_writeCells_of_mem (s.nodup_dstAddrs hn) (fun _ => s.lt_of_mem_dstAddrs) h
    (j := j) (by simpa using hj) hj
  simpa [State.storeOutput] using this

theorem State.wf_storeOutput {s : State} {out : List Byte} (h : Memory.wf s.mem = true) :
    Memory.wf (s.storeOutput out).mem = true :=
  wf_writeCells (fun _ hc => s.lt_of_mem_dstAddrs (List.of_mem_zip hc).1) h

/-- A launch check that fails ends the job before any memory access (40_commands.md R254). -/
theorem performJob_of_launchError {k : JobKind} {tag : BitVec 8}
    {stages : State → Except Fault (State × List Byte)} {s : State} {code : ErrCode}
    (h : s.launchError k = some code) :
    performJob k tag stages s = .next (s.retireError tag code 0) := by
  simp [performJob, h]

/-- A refused byte ends the job (40_commands.md R255). -/
theorem performJob_of_bad {k : JobKind} {tag : BitVec 8}
    {stages : State → Except Fault (State × List Byte)} {s : State}
    (h : s.launchError k = none) (hb : s.badAddrs k ≠ []) :
    performJob k tag stages s = .next (s.retireBusFault k tag) := by
  simp [performJob, h, hb]

/-- Otherwise the job's stages decide. -/
theorem performJob_of_ready {k : JobKind} {tag : BitVec 8}
    {stages : State → Except Fault (State × List Byte)} {s : State}
    (h : s.launchError k = none) (hb : s.badAddrs k = []) :
    performJob k tag stages s =
      match stages s with
      | .error f => .fault f
      | .ok r => .next (r.1.retireOutput k tag r.2) := by
  simp only [performJob, h, hb, ne_eq, not_true_eq_false, if_false]
  cases stages s <;> rfl

/-- Everything a job that answers a next state can have done. -/
theorem performJob_next {k : JobKind} {tag : BitVec 8}
    {stages : State → Except Fault (State × List Byte)} {s t : State}
    (h : performJob k tag stages s = .next t) :
    (∃ code, s.launchError k = some code ∧ t = s.retireError tag code 0) ∨
    (s.launchError k = none ∧ s.badAddrs k ≠ [] ∧ t = s.retireBusFault k tag) ∨
    (s.launchError k = none ∧ s.badAddrs k = [] ∧
      ∃ s₁ out, stages s = .ok (s₁, out) ∧ t = s₁.retireOutput k tag out) := by
  cases hl : s.launchError k with
  | some code =>
    rw [performJob_of_launchError hl] at h
    exact .inl ⟨code, rfl, (Host.Outcome.next.inj h).symm⟩
  | none =>
    by_cases hb : s.badAddrs k = []
    · rw [performJob_of_ready hl hb] at h
      cases hs : stages s with
      | error f => simp [hs] at h
      | ok r =>
        rw [hs] at h
        exact .inr (.inr ⟨rfl, hb, r.1, r.2, rfl, (Host.Outcome.next.inj h).symm⟩)
    · rw [performJob_of_bad hl hb] at h
      exact .inr (.inl ⟨rfl, hb, (Host.Outcome.next.inj h).symm⟩)

/-- A job is never refused. -/
theorem performJob_not_refused {k : JobKind} {tag : BitVec 8}
    {stages : State → Except Fault (State × List Byte)} {s : State} {r : Refusal} :
    performJob k tag stages s ≠ .refused r := by
  unfold performJob
  split
  · simp
  · split
    · simp
    · split <;> simp

/-- The index a `BUS_FAULT` reports is in range, so the address is an element of `Bad`
(60_exceptions.md R452). -/
theorem State.picked_mem_badAddrs {s : State} {k : JobKind} (n : Nat) (hb : s.badAddrs k ≠ []) :
    (s.badAddrs k).getD (n % (s.badAddrs k).length) 0 ∈ s.badAddrs k := by
  have hlt : n % (s.badAddrs k).length < (s.badAddrs k).length :=
    Nat.mod_lt _ (List.length_pos_iff.2 hb)
  rw [List.getD_eq_getElem?_getD, List.getElem?_eq_getElem hlt]
  exact List.getElem_mem hlt

end Sys2Proof.Machine
end

