-- ==== Sys2Proof/Laws/Stages.lean ====
section
/-! SUPPORT. What the stages of each command answer, said once. -/

namespace Sys2Proof.Machine

@[simp] theorem State.ditherStage_snd (s : State) (G : Field) :
    (s.ditherStage G).2 = ditherBits s.ditherCfg G := rfl

/-- The dither stage changes nothing of the state but the working field. -/
theorem State.ditherStage_fst (s : State) (G : Field) :
    (s.ditherStage G).1 = { s with work := some (scanField s.ditherCfg G).1 } := rfl

@[simp] theorem State.rasterOutput_withWork (s : State) (w : Option Field) (B : Bits) :
    ({ s with work := w } : State).rasterOutput B = s.rasterOutput B := rfl

/-- The completion drops the working field, whatever it holds (10_state.md R90). -/
@[simp] theorem State.retireOutput_withWork (s : State) (w : Option Field) (k : JobKind)
    (tag : BitVec 8) (out : List Byte) :
    ({ s with work := w } : State).retireOutput k tag out = s.retireOutput k tag out := by
  have h : ({ s with work := w } : State).overlaps k = s.overlaps k := rfl
  unfold State.retireOutput
  rw [h]
  split <;> rfl

/-- RUN, once the launch checks and the access check have passed (40_commands.md R270). -/
theorem execRun_of_ready {tag : BitVec 8} {s : State} (h : s.launchError .run = none)
    (hb : s.badAddrs .run = []) :
    execRun tag s =
      match s.prepare with
      | .error f => .fault f
      | .ok G => .next (s.retireOutput .run tag (s.rasterOutput (ditherBits s.ditherCfg G))) := by
  rw [execRun, performJob_of_ready h hb, runStages]
  cases s.prepare with
  | error f => rfl
  | ok G => simp [State.ditherStage_fst]

/-- PREP, once the launch checks and the access check have passed (40_commands.md R275). -/
theorem execPrep_of_ready {tag : BitVec 8} {s : State} (h : s.launchError .prep = none)
    (hb : s.badAddrs .prep = []) :
    execPrep tag s =
      match s.prepare with
      | .error f => .fault f
      | .ok G => .next (s.retireOutput .prep tag (fieldBytes G)) := by
  rw [execPrep, performJob_of_ready h hb, prepStages]
  cases s.prepare <;> rfl

/-- DITHER, once the launch checks and the access check have passed (40_commands.md R280). -/
theorem execDither_of_ready {tag : BitVec 8} {s : State} (h : s.launchError .dither = none)
    (hb : s.badAddrs .dither = []) :
    execDither tag s =
      .next (s.retireOutput .dither tag (s.rasterOutput (ditherBits s.ditherCfg s.sampleField))) := by
  rw [execDither, performJob_of_ready h hb, ditherStages]
  simp [State.ditherStage_fst]

/-- PACK, once the launch checks and the access check have passed (40_commands.md R285). -/
theorem execPack_of_ready {tag : BitVec 8} {s : State} (h : s.launchError .pack = none)
    (hb : s.badAddrs .pack = []) :
    execPack tag s = .next (s.retireOutput .pack tag (s.rasterOutput s.monoBits)) := by
  rw [execPack, performJob_of_ready h hb, packStages]

@[simp] theorem length_frameHeader (bpl h : Nat) : (frameHeader bpl h).length = 13 := rfl

@[simp] theorem length_frameTrailer : frameTrailer.length = 6 := rfl

/-- A packed image has `bpl` bytes a row (43_pack.md R401). -/
@[simp] theorem length_packBits (bpl : Nat) (B : Bits) : (packBits bpl B).length = bpl * B.length := by
  simp [packBits, List.length_flatMap, Nat.mul_comm]

/-- The output of a raster job has the length of 40_commands.md R256. -/
theorem State.length_rasterOutput {s : State} {B : Bits} (hB : B.length = s.height) :
    (s.rasterOutput B).length = s.rasterLength := by
  simp only [State.rasterOutput, State.rasterLength]
  split <;> simp [frameRaster, hB]
  omega

/-- PREP's output has two bytes a sample (40_commands.md R256). -/
theorem length_fieldBytes {w h : Nat} {G : Field} (hG : Shaped w h G) :
    (fieldBytes G).length = 2 * w * h := by
  obtain ⟨rfl, hw⟩ := hG
  unfold fieldBytes
  induction G with
  | nil => simp
  | cons row G ih =>
    simp only [List.mem_cons, forall_eq_or_imp] at hw
    have hrow : (row.flatMap sampleBytes).length = 2 * w := by
      simp [List.length_flatMap, sampleBytes, hw.1, Nat.mul_comm]
    rw [List.flatMap_cons, List.length_append, hrow, ih hw.2, List.length_cons]
    ring

/-- The prepared field is the gamma-adjusted field or its sharpening, `H` rows of `W` samples
(41_preprocess.md R300, R321). -/
theorem State.prepare_ok {s : State} {G : Field} (h : s.prepare = .ok G) :
    s.firstUnwritten s.lumaField = none ∧
      G = if s.sharpen then sharpenField s.paddedWidth s.height (s.gammaField s.lumaField)
        else s.gammaField s.lumaField := by
  unfold State.prepare at h
  simp only at h
  split at h
  · cases h
  · rename_i hn
    exact ⟨hn, (Except.ok.inj h).symm⟩

/-- The only way `prepare` stops is a LUT entry never written (41_preprocess.md R311). -/
theorem State.prepare_error {s : State} {f : Fault} (h : s.prepare = .error f) :
    ∃ y, s.firstUnwritten s.lumaField = some y ∧ f = .lutUnwritten y := by
  unfold State.prepare at h
  simp only at h
  split at h
  · rename_i y hy
    exact ⟨y, hy, (Except.error.inj h).symm⟩
  · cases h

theorem State.shaped_gammaField (s : State) :
    Shaped s.paddedWidth s.height (s.gammaField s.lumaField) := by
  constructor
  · simp [State.gammaField, State.lumaField, raster]
  · intro row hrow
    simp only [State.gammaField, State.lumaField, raster, List.mem_map] at hrow
    obtain ⟨_, ⟨y, -, rfl⟩, rfl⟩ := hrow
    simp

theorem State.shaped_prepare {s : State} {G : Field} (h : s.prepare = .ok G) :
    Shaped s.paddedWidth s.height G := by
  rw [(State.prepare_ok h).2]
  split
  · exact shaped_raster _ _ _
  · exact s.shaped_gammaField

end Sys2Proof.Machine
end

