-- ==== Sys2Proof/Laws/Exec.lean ====
section
/-! SUPPORT. Everything a command can do, said once. -/

namespace Sys2Proof.Machine

/-- A job that passes the launch checks has a legal geometry (40_commands.md R254). -/
theorem State.geometry_of_launch {s : State} {k : JobKind} (h : s.launchError k = none) :
    1 ≤ s.srcWidth ∧ s.srcWidth ≤ s.plat.maxDots ∧ 1 ≤ s.height := by
  unfold State.launchError at h
  split at h
  · cases h
  · split at h
    · cases h
    · omega

theorem State.height_lt (s : State) : s.height < 65536 := (s.geom.extractLsb' 16 16).isLt

/-- Every output is shorter than the address space (40_commands.md R256). -/
theorem State.outputLength_lt {s : State} {k : JobKind} (hp : s.plat.wf = true)
    (h : s.launchError k = none) : s.outputLength k < addressSpace := by
  obtain ⟨-, hw, -⟩ := State.geometry_of_launch h
  simp only [Platform.wf, Bool.and_eq_true, decide_eq_true_eq] at hp
  have hh := s.height_lt
  have hpw : s.paddedWidth ≤ 32760 := by simp only [State.paddedWidth, roundup8]; omega
  have hb : s.bytesPerLine ≤ 4095 := by simp only [State.bytesPerLine]; omega
  have h1 : s.bytesPerLine * s.height ≤ 4095 * 65535 := Nat.mul_le_mul hb (by omega)
  have h2 : 2 * s.paddedWidth * s.height ≤ 2 * 32760 * 65535 :=
    Nat.mul_le_mul (by omega) (by omega)
  cases k <;> simp only [State.outputLength, State.rasterLength, addressSpace] <;> (try split) <;>
    omega

theorem State.jobWriteLength_lt {s : State} (hp : s.plat.wf = true) (w : Word) :
    s.jobWriteLength w < addressSpace := by
  unfold State.jobWriteLength
  split
  · decide
  · split
    · decide
    · rename_i h
      exact State.outputLength_lt hp (by simpa using h)

/-- The stages of a job that succeed answer an output of the right length, and the completion is that of
the state the job began in. -/
theorem exec_of_ready {k : JobKind} {tag : BitVec 8} {s : State} (h : s.launchError k = none)
    (hb : s.badAddrs k = []) :
    (∃ y, (k = .run ∨ k = .prep) ∧ s.firstUnwritten s.lumaField = some y ∧
      exec (commandOf k tag) s = .fault (.lutUnwritten y)) ∨
    ∃ out : List Byte, out.length = s.outputLength k ∧
      exec (commandOf k tag) s = .next (s.retireOutput k tag out) := by
  cases k with
  | run =>
    cases hG : s.prepare with
    | error f =>
      obtain ⟨y, hy, rfl⟩ := State.prepare_error hG
      exact .inl ⟨y, .inl rfl, hy, by simp [commandOf, exec, execRun_of_ready h hb, hG]⟩
    | ok G =>
      exact .inr ⟨s.rasterOutput (ditherBits s.ditherCfg G),
        s.length_rasterOutput (shaped_ditherBits s.ditherCfg G).1,
        by simp [commandOf, exec, execRun_of_ready h hb, hG]⟩
  | prep =>
    cases hG : s.prepare with
    | error f =>
      obtain ⟨y, hy, rfl⟩ := State.prepare_error hG
      exact .inl ⟨y, .inr rfl, hy, by simp [commandOf, exec, execPrep_of_ready h hb, hG]⟩
    | ok G =>
      exact .inr ⟨_, length_fieldBytes (State.shaped_prepare hG),
        by simp [commandOf, exec, execPrep_of_ready h hb, hG]⟩
  | dither =>
    exact .inr ⟨_, s.length_rasterOutput (shaped_ditherBits _ _).1, execDither_of_ready h hb⟩
  | pack =>
    exact .inr ⟨_, s.length_rasterOutput (shaped_raster _ _ _).1, execPack_of_ready h hb⟩

theorem exec_of_launchError {k : JobKind} {tag : BitVec 8} {s : State} {code : ErrCode}
    (h : s.launchError k = some code) :
    exec (commandOf k tag) s = .next (s.retireError tag code 0) := by
  cases k
  · exact performJob_of_launchError (stages := runStages) h
  · exact performJob_of_launchError (stages := prepStages) h
  · exact performJob_of_launchError (stages := ditherStages) h
  · exact performJob_of_launchError (stages := packStages) h

theorem exec_of_bad {k : JobKind} {tag : BitVec 8} {s : State} (h : s.launchError k = none)
    (hb : s.badAddrs k ≠ []) :
    exec (commandOf k tag) s = .next (s.retireBusFault k tag) := by
  cases k
  · exact performJob_of_bad (stages := runStages) h hb
  · exact performJob_of_bad (stages := prepStages) h hb
  · exact performJob_of_bad (stages := ditherStages) h hb
  · exact performJob_of_bad (stages := packStages) h hb

/-- A command is NOP, an illegal word, or a memory job. -/
theorem instr_cases (i : Instr) :
    (∃ tag, i = .nop tag) ∨ (∃ op rsv0 tag rsv1, i = .illegal op rsv0 tag rsv1) ∨
      ∃ k tag, i = commandOf k tag := by
  cases i with
  | nop tag => exact .inl ⟨tag, rfl⟩
  | illegal op rsv0 tag rsv1 => exact .inr (.inl ⟨op, rsv0, tag, rsv1, rfl⟩)
  | run tag => exact .inr (.inr ⟨.run, tag, rfl⟩)
  | prep tag => exact .inr (.inr ⟨.prep, tag, rfl⟩)
  | dither tag => exact .inr (.inr ⟨.dither, tag, rfl⟩)
  | pack tag => exact .inr (.inr ⟨.pack, tag, rfl⟩)

/-- Everything a command that answers a next state can have done. -/
theorem exec_next {i : Instr} {s t : State} (h : exec i s = .next t) :
    (∃ tag, i = .nop tag ∧ t = s.retireOk tag 0) ∨
    (∃ op rsv0 tag rsv1, i = .illegal op rsv0 tag rsv1 ∧ t = s.retireError tag .illegalCmd 0) ∨
    ∃ k tag, i = commandOf k tag ∧
      ((∃ code, s.launchError k = some code ∧ t = s.retireError tag code 0) ∨
      (s.launchError k = none ∧ s.badAddrs k ≠ [] ∧ t = s.retireBusFault k tag) ∨
      (s.launchError k = none ∧ s.badAddrs k = [] ∧
        ∃ out : List Byte, out.length = s.outputLength k ∧ t = s.retireOutput k tag out)) := by
  rcases instr_cases i with ⟨tag, rfl⟩ | ⟨op, rsv0, tag, rsv1, rfl⟩ | ⟨k, tag, rfl⟩
  · exact .inl ⟨tag, rfl, (Host.Outcome.next.inj h).symm⟩
  · exact .inr (.inl ⟨op, rsv0, tag, rsv1, rfl, (Host.Outcome.next.inj h).symm⟩)
  · refine .inr (.inr ⟨k, tag, rfl, ?_⟩)
    cases hl : s.launchError k with
    | some code =>
      rw [exec_of_launchError hl] at h
      exact .inl ⟨code, rfl, (Host.Outcome.next.inj h).symm⟩
    | none =>
      by_cases hb : s.badAddrs k = []
      · rcases exec_of_ready (tag := tag) hl hb with ⟨y, -, -, he⟩ | ⟨out, hlen, he⟩
        · rw [he] at h
          cases h
        · rw [he] at h
          exact .inr (.inr ⟨rfl, hb, out, hlen, (Host.Outcome.next.inj h).symm⟩)
      · rw [exec_of_bad hl hb] at h
        exact .inr (.inl ⟨rfl, hb, (Host.Outcome.next.inj h).symm⟩)

end Sys2Proof.Machine
end

