-- ==== Sys2Proof/Laws/HostPort.lean ====
section
/-! SUPPORT. What a host access can do, and what a step can be. -/

namespace Sys2Proof.Machine

theorem State.whenIdle_of_busy {s : State} {update : State → State} {w : Word} (h : s.job = some w) :
    s.whenIdle update = s.ignoreWrite := by
  simp [State.whenIdle, State.busy, h]

theorem State.whenIdle_of_idle {s : State} {update : State → State} (h : s.job = none) :
    s.whenIdle update = update s := by
  simp [State.whenIdle, State.busy, h]

/-- The LUT window (10_state.md R55, R80). -/
theorem regAt_lut (i : Fin 256) : regAt (0x400 + 4 * i.val) = .lut i := by
  have h : (0x400 + 4 * i.val) / 4 = 0x100 + i.val := by omega
  have hi := i.isLt
  simp only [regAt, h, regOfIndex]
  rw [dif_pos (by omega)]
  simp

/-- The Bayer window (10_state.md R55, R83). -/
theorem regAt_bayer (k : Fin 64) : regAt (0x800 + 4 * k.val) = .bayer k := by
  have h : (0x800 + 4 * k.val) / 4 = 0x200 + k.val := by omega
  have hk := k.isLt
  simp only [regAt, h, regOfIndex]
  rw [dif_neg (by omega), dif_pos (by omega)]
  simp

/-- The reserved ranges (10_state.md R55, R84). -/
theorem regAt_reserved {offset : Nat}
    (h : (0x02C ≤ offset ∧ offset ≤ 0x3FC) ∨ 0x900 ≤ offset) (h4 : offset % 4 = 0) :
    regAt offset = .reserved := by
  obtain ⟨n, rfl⟩ : ∃ n, offset = 4 * n := ⟨offset / 4, by omega⟩
  have hn : 4 * n / 4 = n := by omega
  simp only [regAt, hn, regOfIndex]
  rw [dif_neg (by omega), dif_neg (by omega)]
  split <;> first | omega | rfl

/-- A register access the port defines goes to its place (20_memory.md R180). -/
theorem hostRegWrite_of_ok {offset : Nat} (h4 : offset % 4 = 0) (h : offset ≤ 0xFFC) (v : Word)
    (s : State) : hostRegWrite 4 offset v s = .next (s.writeReg (regAt offset) v) := by
  simp [hostRegWrite, regAccessOk, h4, h]

theorem hostRegRead_of_ok {offset : Nat} (h4 : offset % 4 = 0) (h : offset ≤ 0xFFC) (s : State) :
    hostRegRead 4 offset s = .next (s.readReg offset) := by
  simp [hostRegRead, regAccessOk, h4, h]

/-- Everything a register write can do. -/
theorem State.writeReg_cases (s : State) (r : Reg) (v : Word) :
    s.writeReg r v = s ∨ s.writeReg r v = s.clearStatus v ∨
    (s.job ≠ none ∧ s.writeReg r v = s.ignoreWrite) ∨
    (s.job = none ∧
      (s.writeReg r v = s.setCtrl v ∨ s.writeReg r v = s.setGeom v ∨
        s.writeReg r v = s.setSrcAddr v ∨ s.writeReg r v = s.setSrcStride v ∨
        s.writeReg r v = s.setDstAddr v ∨ s.writeReg r v = s.accept v ∨
        ∃ i, s.writeReg r v = s.setLut i v)) := by
  cases hj : s.job with
  | none =>
    cases r with
    | lut i =>
      refine .inr (.inr (.inr ⟨rfl, .inr (.inr (.inr (.inr (.inr (.inr ⟨i, ?_⟩)))))⟩))
      simp [State.writeReg, State.whenIdle_of_idle hj]
    | _ => simp [State.writeReg, State.whenIdle_of_idle hj]
  | some w => cases r <;> simp [State.writeReg, State.whenIdle_of_busy hj]

/-- A latched command is what the engine's turn executes (40_commands.md R252). -/
theorem engineTurn_of_busy {s : State} {w : Word} (h : s.job = some w) :
    engineTurn s = exec (decode w) s := by
  simp [engineTurn, State.fetch, h]

/-- An idle engine keeps all of its state (60_exceptions.md R475). -/
theorem engineTurn_of_idle {s : State} (h : s.job = none) : engineTurn s = .next s := by
  simp [engineTurn, State.fetch, h]

/-- Everything that can follow when an input is taken and the machine goes on. -/
theorem takeInput_next {e : Input} {s t : State} (h : takeInput e s = .next t) :
    (e = .engine ∧ engineTurn s = .next t) ∨
    (∃ offset, t = s.readReg offset) ∨
    (∃ r v, t = s.writeReg r v) ∨
    (∃ a, s.races .read a = false ∧ t = s.answer (.mem (BitVec.ofNat 32 a) (readByte s.mem a))) ∨
    (∃ (a : Word) (v : Byte), s.races .write a.toNat = false ∧
      t = { s with mem := writeByte s.mem a.toNat v }) ∨
    (e = .reset ∧ t = s.resetEvent) := by
  cases e with
  | engine => exact .inl ⟨rfl, h⟩
  | regRead size offset =>
    simp only [takeInput, hostRegRead] at h
    split at h
    · exact .inr (.inl ⟨offset, (Host.Outcome.next.inj h).symm⟩)
    · cases h
  | regWrite size offset v =>
    simp only [takeInput, hostRegWrite] at h
    split at h
    · exact .inr (.inr (.inl ⟨regAt offset, v, (Host.Outcome.next.inj h).symm⟩))
    · cases h
  | memRead a =>
    simp only [takeInput, hostMemRead] at h
    split at h
    · cases h
    · rename_i hr
      exact .inr (.inr (.inr (.inl ⟨a.toNat, by simpa using hr, by
        simpa using (Host.Outcome.next.inj h).symm⟩)))
  | memWrite a v =>
    simp only [takeInput, hostMemWrite] at h
    split at h
    · cases h
    · rename_i hr
      exact .inr (.inr (.inr (.inr (.inl ⟨a, v, by simpa using hr, (Host.Outcome.next.inj h).symm⟩))))
  | reset => exact .inr (.inr (.inr (.inr (.inr ⟨rfl, (Host.Outcome.next.inj h).symm⟩))))
  | regDuringReset => cases h

end Sys2Proof.Machine
end

