-- ==== Sys2Proof/Laws/PerInstr.lean ====
section
/-! SUPPORT. Statements about every command as syntax, one lemma per constructor. -/

namespace Sys2Proof.Laws.TagPlace

/-- Bits [15:8] of a command's word are its tag (30_encoding.md R200, R202). -/
def Statement (i : Instr) : Prop := tagField (encode i) = i.tag

theorem tagField_commandWord (op rsv0 : BitVec 4) (tag : BitVec 8) (rsv1 : BitVec 16) :
    tagField (commandWord op rsv0 tag rsv1) = tag := by
  simp only [tagField, commandWord]
  ext i hi
  simp only [BitVec.getElem_extractLsb', BitVec.getLsbD_append]
  rw [if_neg (by omega), if_neg (by omega), if_pos (by omega)]
  rw [← BitVec.getLsbD_eq_getElem]
  congr 1
  omega

theorem nop (tag : BitVec 8) : Statement (.nop tag) := tagField_commandWord _ _ _ _

theorem run (tag : BitVec 8) : Statement (.run tag) := tagField_commandWord _ _ _ _

theorem prep (tag : BitVec 8) : Statement (.prep tag) := tagField_commandWord _ _ _ _

theorem dither (tag : BitVec 8) : Statement (.dither tag) := tagField_commandWord _ _ _ _

theorem pack (tag : BitVec 8) : Statement (.pack tag) := tagField_commandWord _ _ _ _

theorem illegal (op rsv0 : BitVec 4) (tag : BitVec 8) (rsv1 : BitVec 16) :
    Statement (.illegal op rsv0 tag rsv1) := tagField_commandWord _ _ _ _

end Sys2Proof.Laws.TagPlace
end

