-- ==== Sys2Proof/Laws/Scan.lean ====
section
/-! SUPPORT. The row-major scan, one pixel at a time (42_dither.md R351). -/

namespace Sys2Proof.Machine

@[simp] theorem fieldBefore_zero (cfg : DitherCfg) (G : Field) : fieldBefore cfg G 0 = G := rfl

theorem fieldBefore_succ (cfg : DitherCfg) (G : Field) (n : Nat) :
    fieldBefore cfg G (n + 1) =
      (ditherBody cfg (n % cfg.w) (n / cfg.w) (fieldBefore cfg G n)).1 := by
  simp only [fieldBefore, List.range_succ, List.foldl_append, List.foldl_cons, List.foldl_nil]

end Sys2Proof.Machine
end

