-- ==== Sys2Proof/Tests/Slice0.lean ====
section
/-! SUPPORT. The model's own tests: the checks of WellFormed, decoding, one step of every command on a small
image of 95_test_vectors.md, and a state that meets the hypotheses of every statement that has any. -/

namespace Sys2Proof.Machine.Tests

/-! ## WellFormed, memory form -/

theorem test_illegal_with_legal_fields_refused : Instr.wf (.illegal 4#4 0#4 7#8 0#16) = false := by decide
theorem test_reserved_op_accepted : Instr.wf (.illegal 5#4 0#4 7#8 0#16) = true := by decide
theorem test_rsv0_accepted : Instr.wf (.illegal 1#4 1#4 7#8 0#16) = true := by decide
theorem test_rsv1_accepted : Instr.wf (.illegal 1#4 0#4 7#8 1#16) = true := by decide
theorem test_maxDots_not_multiple_refused : Platform.wf { maxDots := 380, refused := [] } = false := by decide
theorem test_maxDots_zero_refused : Platform.wf { maxDots := 0, refused := [] } = false := by decide
theorem test_maxDots_too_wide_refused : Platform.wf { maxDots := 32768, refused := [] } = false := by decide
theorem test_memory_unsorted_refused : Memory.wf [(5, 1#8), (3, 1#8)] = false := by decide
theorem test_memory_zero_entry_refused : Memory.wf [(5, 0#8)] = false := by decide
theorem test_memory_past_end_refused : Memory.wf [(4294967296, 1#8)] = false := by decide
theorem test_write_of_unlisted_value_unlists : writeByte [(5, 1#8)] 5 0#8 = [] := by decide

/-! ## Decoding: words written out from the bit pattern of R200, and the legal and illegal words of V12 -/

theorem test_decode_nop : decode (0b00000000000000000000001100000000#32) = .nop 3#8 := by decide
theorem test_decode_run : decode (0b00000000000000000000011100000001#32) = .run 7#8 := by decide
theorem test_decode_prep : decode (0b00000000000000000001000000000010#32) = .prep 0x10#8 := by decide
theorem test_decode_dither : decode (0b00000000000000001111111100000011#32) = .dither 0xFF#8 := by decide
theorem test_decode_pack : decode (0b00000000000000000000000100000100#32) = .pack 1#8 := by decide
theorem test_decode_op9 : decode (0b00000000000000000100001000001001#32) = .illegal 9#4 0#4 0x42#8 0#16 := by
  decide
theorem test_decode_rsv0 : decode 0x00000011#32 = .illegal 1#4 1#4 0#8 0#16 := by decide
theorem test_decode_rsv1 : decode 0x80000000#32 = .illegal 0#4 0#4 0#8 0x8000#16 := by decide
theorem test_table_word : decodeTableWord 32 0x00000701 = some (.run 7#8) := by decide
theorem test_table_word_too_long : decodeTableWord 40 0x00000701 = none := by decide

/-! ## The host's gamma curve: the selected entries of V16 at 100 and 128 -/

theorem test_gam_values :
    [gam 1 10 100, gam 1 2 128, gam 1 1 128, gam 3 2 100] = [6, 16448, 32768, 34975] := by
  decide +kernel

/-! ## Small machines -/

/-- What holds of the next state, false when there is none. -/
def after (o : Host.Outcome State Fault Refusal) (p : State → Bool) : Bool :=
  match o with
  | .next t => p t
  | _ => false

/-- A fully written LUT in which entry 0 is 0, entry 255 is `FULL` and the others are level 128. -/
def threeLevels : Vector LutEntry 256 :=
  ((Vector.replicate 256 { value := 32768#16, written := true }).set 0
    { value := 0#16, written := true }).set 255 { value := 65280#16, written := true }

/-- The reset machine with a configuration, a source at 0x1000 with 16 bytes a row, a destination at
0x2000, and the given bytes from 0x1000 on. -/
def machine (ctrl geom : Word) (bytes : List Byte) : State :=
  { State.reset with
    ctrl := ctrl, geom := geom, srcAddr := 0x1000#32, srcStride := 16#32, dstAddr := 0x2000#32
    lut := threeLevels
    mem := writeCells [] (((List.range bytes.length).map fun j => 0x1000 + j).zip bytes) }

/-- The first `n` bytes at 0x2000. -/
def outBytes (n : Nat) (t : State) : List Byte := (List.range n).map fun j => readByte t.mem (0x2000 + j)

/-- V1: the 8x1 packing scenario, None, threshold 128. -/
def packing : State :=
  machine 0x00008003#32 0x00010008#32 [0#8, 255#8, 0#8, 255#8, 0#8, 255#8, 0#8, 255#8]

/-- V19: the 5x1 DITHER field, None, threshold 128. -/
def samples : State :=
  machine 0x00008003#32 0x00010005#32
    [0xFF#8, 0xFF#8, 0x00#8, 0x00#8, 0x00#8, 0x80#8, 0xFF#8, 0x7F#8, 0x00#8, 0xFF#8]

/-- V31: a mono row, framed. -/
def monoRow : State :=
  machine 0x00008010#32 0x00010008#32 [1#8, 0#8, 1#8, 0#8, 1#8, 0#8, 1#8, 0#8]

/-! ## One step of every command -/

/-- V12. -/
theorem test_nop_status : after (exec (.nop 3#8) State.reset) (fun t => t.statusWord == 0x302#32) = true := by
  decide
/-- V12. -/
theorem test_illegal_status :
    after (exec (decode 0x00004209#32) State.reset) (fun t => t.statusWord == 0x4216#32) = true := by
  decide
/-- V1. -/
theorem test_run_packing_scenario :
    after (exec (.run 1#8) packing)
      (fun t => (outBytes 2 t == [0xAA#8, 0#8]) && (t.statusWord == 0x102#32) && (t.outLen == 1#32)) = true := by
  decide
/-- V32: right after reset. -/
theorem test_run_after_reset :
    after (exec (.run 0x10#8) State.reset) (fun t => t.statusWord == 0x1036#32) = true := by
  decide
/-- V17. -/
theorem test_prep_layout :
    after (exec (.prep 2#8) (machine 0x00008000#32 0x00010002#32 [0x80#8, 0xFF#8]))
      (fun t => (outBytes 4 t == [0x00#8, 0x80#8, 0x00#8, 0xFF#8]) && (t.outLen == 16#32)) = true := by
  decide
/-- V32: `INFMT` = 3. -/
theorem test_prep_bad_format :
    after (exec (.prep 0x0B#8) (machine 0x000080C0#32 0x00010002#32 [])) (fun t => t.statusWord == 0xB26#32) =
      true := by
  decide
/-- V19. -/
theorem test_dither_clamp_and_padding :
    after (exec (.dither 0xA#8) samples) (fun t => (outBytes 1 t == [0x50#8]) && (t.statusWord == 0xA02#32)) =
      true := by
  decide
/-- V22: FloydSteinberg of 8x1 at level 100. -/
theorem test_floyd_row :
    ditherBits { mode := .floydSteinberg, threshold := 128, invert := false, w := 8, h := 1 }
      [List.replicate 8 25600] = [[true, false, true, true, false, true, true, false]] := by
  decide
/-- V22: Atkinson of 8x1 at level 100. -/
theorem test_atkinson_row :
    ditherBits { mode := .atkinson, threshold := 128, invert := false, w := 8, h := 1 }
      [List.replicate 8 25600] = [[true, true, true, false, true, true, true, true]] := by
  decide
/-- V31. -/
theorem test_pack_framed :
    after (exec (.pack 1#8) monoRow) (fun t => outBytes 20 t ==
      [0x1B#8, 0x40#8, 0x1B#8, 0x61#8, 0x01#8, 0x1D#8, 0x76#8, 0x30#8, 0x00#8, 0x01#8, 0x00#8, 0x01#8, 0x00#8,
        0xAA#8, 0x1B#8, 0x64#8, 0x02#8, 0x1B#8, 0x64#8, 0x02#8]) = true := by
  decide

/-! ## Witnesses: states and operands that meet the hypotheses of the statements -/

/-- A busy machine with inputs pending: `packing` with `cmd PACK, 5` accepted. -/
def busyWith (inputs : List Input) : State := { packing with job := some 0x00000504#32, inputs := inputs }

theorem threeLevels_range (i : Fin 256) : (threeLevels[i.val]'i.isLt).value.toNat ≤ 65280 := by
  simp only [threeLevels, Vector.getElem_set, Vector.getElem_replicate]
  split <;> [skip; split] <;> decide

theorem packing_inv : packing.Inv where
  memCanonical := by decide
  ctrlReserved := by decide
  lutRange := fun i _ => threeLevels_range i
  errcodeKnown := by decide
  errHasCode := by decide
  busyPending := by decide
  errorWritesNoLength := by decide
  faultAddrOfBusFault := by decide
  workGone := rfl
  platLegal := by decide

theorem busy_inv (inputs : List Input) : (busyWith inputs).Inv where
  memCanonical := packing_inv.memCanonical
  ctrlReserved := packing_inv.ctrlReserved
  lutRange := fun i _ => threeLevels_range i
  errcodeKnown := packing_inv.errcodeKnown
  errHasCode := packing_inv.errHasCode
  busyPending := fun _ => ⟨rfl, rfl⟩
  errorWritesNoLength := packing_inv.errorWritesNoLength
  faultAddrOfBusFault := packing_inv.faultAddrOfBusFault
  workGone := rfl
  platLegal := packing_inv.platLegal

theorem witness_DecodeOfEncode : Instr.wf (.illegal 15#4 15#4 255#8 65535#16) = true := by decide

theorem witness_LegalWordIffFieldsLegal :
    State.reset.job = none ∧
    ¬ ((5#32 : Word).toNat % 16 ≤ 4 ∧ (5#32 : Word).toNat / 16 % 16 = 0 ∧ (5#32 : Word).toNat / 65536 = 0) ∧
    ((4#32 : Word).toNat % 16 ≤ 4 ∧ (4#32 : Word).toNat / 16 % 16 = 0 ∧ (4#32 : Word).toNat / 65536 = 0) := by
  decide

theorem witness_ResetEventAbandonsJob :
    (busyWith [.reset]).inputs = [.reset] ∧ (busyWith [.reset]).job = some 0x00000504#32 ∧
    0x1000 ∉ (busyWith [.reset]).dstAddrs ((busyWith [.reset]).jobWriteLength 0x00000504#32) ∧
    Memory.wf (busyWith [.reset]).mem = true ∧ (busyWith [.reset]).plat.wf = true ∧
    0 < (busyWith [.reset]).jobWriteLength 0x00000504#32 ∧ packing.job = none := by
  decide

theorem witness_StepRunsLatchedCommand :
    (busyWith []).job = some 0x00000504#32 ∧ decode 0x00000504#32 = .pack 5#8 ∧
    Instr.wf (.pack 5#8) = true ∧ (busyWith []).inputs = [] ∧
    (busyWith [.engine]).inputs = [.engine] := by
  decide

theorem witness_IdleEngineKeepsState :
    packing.job = none ∧ packing.inputs = [] ∧
    ({ packing with inputs := [.engine] } : State).inputs = [.engine] := by
  decide

theorem witness_StepKeepsInvariant :
    (busyWith [.regRead 4 0x020]).Inv ∧ ∃ t, step (busyWith [.regRead 4 0x020]) = .next t :=
  ⟨busy_inv _, _, rfl⟩

theorem witness_JobCompletesAfterPendingInputs :
    (busyWith [.regRead 4 0x020]).job = some 0x00000504#32 ∧
    Input.reset ∉ (busyWith [.regRead 4 0x020]).inputs ∧
    after (Host.Core.run Sys2Proof.core ((busyWith [.regRead 4 0x020]).inputs.length + 1)
      (busyWith [.regRead 4 0x020])) (fun t => t.done) = true := by
  decide

theorem witness_BusyStepKeepsJobInputs :
    (busyWith [.memWrite 0x1008#32 7#8]).job = some 0x00000504#32 ∧
    (busyWith [.memWrite 0x1008#32 7#8]).inputs = [.memWrite 0x1008#32 7#8] ∧
    Input.memWrite 0x1008#32 7#8 ≠ .engine ∧ Input.memWrite 0x1008#32 7#8 ≠ .reset ∧
    (busyWith [.memWrite 0x1008#32 7#8]).plat.wf = true ∧
    after (step (busyWith [.memWrite 0x1008#32 7#8])) (fun t => t.busy) = true ∧
    0x1007 ∈ (busyWith [.memWrite 0x1008#32 7#8]).jobReads 0x00000504#32 ∧
    0x2000 ∈ (busyWith [.memWrite 0x1008#32 7#8]).dstAddrs
      ((busyWith [.memWrite 0x1008#32 7#8]).jobWriteLength 0x00000504#32) := by
  decide

/-- Idle: IdleConfigWriteStored, IdleCommandAccepted, LutWriteStoresClampedValue (whose last clause the
range of the same machine's LUT meets, `threeLevels_range`), InterruptLevel. -/
theorem witness_idle : packing.job = none ∧ (0x00000002#32 : Word).getLsbD 1 = true := by decide

theorem witness_InterruptLevel :
    after (hostRegWrite 4 0x01C 0#32 packing) (fun t => t.busy) = true ∧
    after (hostRegWrite 4 0x020 2#32 packing) (fun t => !t.busy) = true := by
  decide

/-- Busy: BusyConfigWriteIgnored at both ends of its ranges, BusyCommandIgnored. -/
theorem witness_BusyConfigWriteIgnored :
    (busyWith []).job = some 0x00000504#32 ∧ 0x008 ∈ [0x008, 0x00C, 0x010, 0x014, 0x018] ∧
    0x018 ∈ [0x008, 0x00C, 0x010, 0x014, 0x018] ∧ (0 < 256 ∧ 0x400 = 0x400 + 4 * 0) ∧
    (255 < 256 ∧ 0x7FC = 0x400 + 4 * 255) ∧ 0xFFC % 4 = 0 := by
  decide

theorem witness_ReadOnlyAndReservedWritesDropped :
    0x000 ∈ [0x000, 0x004, 0x024, 0x028] ∧ 0x028 % 4 = 0 ∧ (0x800 ≤ 0x8FC ∧ 0x8FC < 0x900) ∧
    0x8FC % 4 = 0 ∧ (0x02C ≤ 0x02C ∧ 0x02C ≤ 0x3FC) ∧ 0x3FC % 4 = 0 ∧
    (0x900 ≤ 0x900 ∧ 0xFFC ≤ 0xFFC) ∧ 0xFFC % 4 = 0 := by
  decide

theorem witness_RegisterReadHasNoSideEffect :
    after (hostRegRead 4 0x008 packing) (fun t => t.answers == [.reg 0x008 0x00008003#32]) = true ∧
    ∃ t, hostRegRead 4 0x008 packing = .next t :=
  ⟨by decide, _, rfl⟩

theorem witness_LutReadAnswersEntry :
    (packing.lut[(7 : Nat)]).written = true ∧ (State.reset.lut[(7 : Nat)]).written = false := by decide

theorem witness_RegisterAccessWidthAndAlignment :
    (2 ≠ 4 ∧ 0x002 % 4 ≠ 0 ∧ 0xFFC < 0x1000) ∧ (4 = 4 ∧ 0xFFC % 4 = 0 ∧ 0xFFC ≤ 0xFFC) := by
  decide

/-- PACK of `packing` reads 0x1000..0x1007 and writes 0x2000. -/
theorem witness_HostMemoryAccess :
    (busyWith []).plat.wf = true ∧ (busyWith []).job = some 0x00000504#32 ∧
    (0x2000#32 : Word).toNat ∈ (busyWith []).dstAddrs ((busyWith []).jobWriteLength 0x00000504#32) ∧
    (0x1000#32 : Word).toNat ∈ (busyWith []).jobReads 0x00000504#32 ∧
    (0x1007#32 : Word).toNat ∈ (busyWith []).jobReads 0x00000504#32 ∧
    (0x1007#32 : Word).toNat ∉ (busyWith []).dstAddrs ((busyWith []).jobWriteLength 0x00000504#32) ∧
    (0x2001#32 : Word).toNat ∉ (busyWith []).dstAddrs ((busyWith []).jobWriteLength 0x00000504#32) ∧
    (0x2001#32 : Word).toNat ∉ (busyWith []).jobReads 0x00000504#32 ∧
    Memory.wf (busyWith []).mem = true := by
  decide

/-- NopCompletes, with each reserved field set in turn. -/
theorem witness_NopCompletes :
    State.reset.wign = false ∧
    ((0x00000010#32 : Word).toNat % 16 = 0 ∧ (0x00000010#32 : Word).toNat / 16 % 16 ≠ 0) ∧
    ((0x00010000#32 : Word).toNat % 16 = 0 ∧ (0x00010000#32 : Word).toNat / 65536 ≠ 0) := by
  decide

/-- IllegalCommandCompletes, and the first clause of LaunchErrorsInOrder at the lowest reserved `OP`. -/
theorem witness_IllegalCommandCompletes :
    State.reset.wign = false ∧ State.reset.job = none ∧ 4 < (0x00000005#32 : Word).toNat % 16 ∧
    ¬ ((5#32 : Word).toNat % 16 ≤ 4 ∧ (5#32 : Word).toNat / 16 % 16 = 0 ∧ (5#32 : Word).toNat / 65536 = 0) := by
  decide

theorem witness_IdentificationReads : State.reset.plat.wf = true := by decide

theorem witness_LaunchErrorsInOrder :
    (machine 0x000080C0#32 0x00010008#32 []).ctrl.toNat / 64 % 4 = 3 ∧
    ¬ (packing.ctrl.toNat / 64 % 4 = 3) ∧
    (machine 0x00008000#32 0x00010000#32 []).geom.toNat % 65536 = 0 ∧
    (machine 0x00008000#32 0x00010181#32 []).plat.maxDots <
      (machine 0x00008000#32 0x00010181#32 []).geom.toNat % 65536 ∧
    (machine 0x00008000#32 0x00000008#32 []).geom.toNat / 65536 = 0 := by
  decide

/-- V32: the read of 0x1005 and the write of 0x2000 refused. -/
def refusing : State :=
  { packing with plat := { maxDots := 384, refused := [⟨.read, 0x1005, 0x1005⟩, ⟨.write, 0x2000, 0x2000⟩] } }

/-- V32, with the read of 0x1005 alone refused. -/
def refusingOne : State :=
  { packing with plat := { maxDots := 384, refused := [⟨.read, 0x1005, 0x1005⟩] } }

theorem witness_BusFaultReportsRefusedByte :
    refusing.launchError .pack = none ∧
    (0x1005 ∈ refusing.readSet .pack ∧ memAdmit refusing.plat .read 0x1005 = false) ∧
    (0x2000 ∈ refusing.dstAddrs (refusing.outputLength .pack) ∧
      memAdmit refusing.plat .write 0x2000 = false) ∧
    refusingOne.launchError .pack = none ∧ refusingOne.badAddrs .pack = [0x1005] ∧
    Memory.wf refusingOne.mem = true ∧ refusingOne.plat.wf = true ∧
    0 < ((refusingOne.dstAddrs (refusingOne.outputLength .pack)).filter
      fun a => memAdmit refusingOne.plat .write a).length := by
  decide

theorem witness_RefusedByteNeverWritten :
    after (exec (.pack 1#8) refusing) (fun t => t.err) = true ∧
    memAdmit refusing.plat .write 0x2000 = false := by
  decide

/-- RunCompletes, JobDependsOnReadSetOnly for RUN. -/
theorem witness_RunCompletes :
    Memory.wf packing.mem = true ∧ packing.plat.wf = true ∧ packing.jobReady .run = true ∧
    packing.overlaps .run = false ∧ packing.lookupsWritten := by
  refine ⟨by decide, by decide, by decide, by decide, ?_⟩
  unfold State.lookupsWritten
  decide

theorem witness_PrepCompletes :
    Memory.wf packing.mem = true ∧ packing.plat.wf = true ∧ packing.jobReady .prep = true ∧
    packing.overlaps .prep = false ∧ packing.lookupsWritten := by
  refine ⟨by decide, by decide, by decide, by decide, ?_⟩
  unfold State.lookupsWritten
  decide

theorem witness_DitherCompletes :
    Memory.wf samples.mem = true ∧ samples.plat.wf = true ∧ samples.jobReady .dither = true ∧
    samples.overlaps .dither = false := by
  decide

theorem witness_PackCompletes :
    Memory.wf monoRow.mem = true ∧ monoRow.plat.wf = true ∧ monoRow.jobReady .pack = true ∧
    monoRow.overlaps .pack = false ∧ monoRow.frame = true := by
  decide

/-- The packing scenario written onto its own source. -/
def overlapping : State := { packing with dstAddr := 0x1003#32 }

theorem witness_OverlapFreesWholeWriteSet :
    Memory.wf overlapping.mem = true ∧ overlapping.plat.wf = true ∧ overlapping.jobReady .run = true ∧
    overlapping.overlaps .run = true ∧ overlapping.jobReady .pack = true ∧
    overlapping.overlaps .pack = true ∧ overlapping.lookupsWritten := by
  refine ⟨by decide, by decide, by decide, by decide, by decide, by decide, ?_⟩
  unfold State.lookupsWritten
  decide

/-- V34: the packing scenario without a LUT fill. -/
def noLut : State := { packing with lut := State.reset.lut }

theorem witness_UnwrittenLookupFaults :
    noLut.jobReady .run = true ∧ noLut.jobReady .prep = true ∧ ¬ noLut.lookupsWritten := by
  refine ⟨by decide, by decide, ?_⟩
  unfold State.lookupsWritten
  decide

theorem witness_CommandWritesOnlyWriteSet :
    Instr.wf (.pack 5#8) = true ∧ after (exec (.pack 5#8) packing) (fun t => t.done) = true ∧
    0x1000 ∉ packing.dstAddrs (packing.jobWriteLength (encode (.pack 5#8))) := by
  decide

/-- `T` = 0x3000. -/
theorem witness_RunIsPrepThenDither :
    packing.Inv ∧ packing.lookupsWritten ∧ packing.jobReady .run = true ∧
    packing.overlaps .run = false ∧
    ({ packing with dstAddr := 0x3000#32 } : State).jobReady .prep = true ∧
    ({ packing with dstAddr := 0x3000#32 } : State).overlaps .prep = false ∧
    ({ packing with srcAddr := 0x3000#32, srcStride := 16#32, dstAddr := packing.dstAddr
                    geom := 1#16 ++ 8#16 } : State).jobReady .dither = true ∧
    ({ packing with srcAddr := 0x3000#32, srcStride := 16#32, dstAddr := packing.dstAddr
                    geom := 1#16 ++ 8#16 } : State).overlaps .dither = false := by
  refine ⟨packing_inv, witness_RunCompletes.2.2.2.2, by decide, by decide, by decide, by decide, by decide,
    by decide⟩

/-- A machine that differs from `packing` in a byte outside the read set of PACK. -/
def packingBeside : State := { packing with mem := writeByte packing.mem 0x1008 9#8 }

theorem witness_JobDependsOnReadSetOnly :
    Memory.wf packing.mem = true ∧ Memory.wf packingBeside.mem = true ∧ packing.plat.wf = true ∧
    packingBeside.ctrl = packing.ctrl ∧ packingBeside.geom = packing.geom ∧
    packingBeside.srcAddr = packing.srcAddr ∧ packingBeside.srcStride = packing.srcStride ∧
    packingBeside.dstAddr = packing.dstAddr ∧ packingBeside.lut = packing.lut ∧
    packingBeside.plat = packing.plat ∧
    (∀ a ∈ packing.readSet .pack, readByte packingBeside.mem a = readByte packing.mem a) ∧
    readByte packingBeside.mem 0x1008 ≠ readByte packing.mem 0x1008 ∧
    packing.badAddrs .pack = [] ∧ packing.overlaps .pack = false :=
  ⟨by decide, by decide, by decide, rfl, rfl, rfl, rfl, rfl, rfl, rfl, by decide, by decide, by decide,
    by decide⟩

/-- The three formats of LumaRoundsWeightedSum. -/
theorem witness_LumaRoundsWeightedSum :
    (machine 0x00008000#32 0x00010008#32 []).ctrl.toNat / 64 % 4 = 0 ∧
    (machine 0x00008040#32 0x00010008#32 []).ctrl.toNat / 64 % 4 = 1 ∧
    (machine 0x00008080#32 0x00010008#32 []).ctrl.toNat / 64 % 4 = 2 := by
  decide

theorem witness_PaddedWidthWithinDevice :
    samples.plat.wf = true ∧ samples.srcWidth ≤ samples.plat.maxDots ∧ samples.srcWidth = 5 := by
  decide

theorem witness_PreparedFieldInRange : packing.Inv ∧ ∃ G, packing.prepare = .ok G := ⟨packing_inv, _, rfl⟩

/-- A prepared field of 8x3 samples with levels 0, 100 and 255. -/
def field83 : Field :=
  [List.replicate 8 25600, [0, 65280, 0, 65280, 25600, 25600, 65280, 65280], List.replicate 8 0]

/-- SharpenPixel, SharpenIntermediateRange, and the shape the dither statements ask for. -/
theorem witness_SharpenIntermediateRange :
    8 ≤ 8 ∧ 7 < 8 ∧ 2 < 3 ∧ preparedShape 8 3 field83 := by
  refine ⟨by decide, by decide, by decide, ?_⟩
  unfold preparedShape
  decide

/-- A FloydSteinberg and an Atkinson stage of that field. -/
def floyd83 : DitherCfg := { mode := .floydSteinberg, threshold := 128, invert := false, w := 8, h := 3 }

def atkinson83 : DitherCfg := { mode := .atkinson, threshold := 128, invert := true, w := 8, h := 3 }

/-- FloydBodyContributions, AtkinsonBodyContributions, FloydConservesError, AtkinsonLosesQuarterOfError:
an interior pixel, and the corners of the coordinate ranges. -/
theorem witness_body_contributions :
    floyd83.mode = .floydSteinberg ∧ atkinson83.mode = .atkinson ∧ field83.length = floyd83.h ∧
    (∀ row ∈ field83, row.length = floyd83.w) ∧ (0 < floyd83.w ∧ 7 < floyd83.w) ∧
    (0 < floyd83.h ∧ 2 < floyd83.h) ∧ (1 ≤ 1 ∧ 1 + 2 ≤ floyd83.w ∧ 0 + 2 ≤ floyd83.h) ∧
    (1 ≤ 1 ∧ 1 + 3 ≤ atkinson83.w ∧ 0 + 3 ≤ atkinson83.h) := by
  decide

theorem witness_BodyWritesOnlyLaterCells : (0 < 1 ∨ (0 = 1 ∧ 5 ≤ 2)) ∧ (1 < 1 ∨ (1 = 1 ∧ 2 ≤ 2)) := by decide

/-- ScanIsRowMajor: the first and the last pixel, and a field after its own bodies. -/
theorem witness_ScanIsRowMajor :
    (0 < floyd83.w ∧ 0 < floyd83.h ∧ 7 < floyd83.w ∧ 2 < floyd83.h) ∧ 2 * floyd83.w + 7 ≤ 24 ∧
    (0 < 1 ∨ (0 = 1 ∧ 5 ≤ 2)) ∧ (1 < 1 ∨ (1 = 1 ∧ 2 ≤ 2)) := by
  decide

theorem witness_ErrorDiffusionWorkingRange :
    24 ≤ floyd83.w * floyd83.h ∧ fieldBefore floyd83 field83 24 ≠ field83 ∧ floyd83.threshold ≤ 255 ∧ preparedShape floyd83.w floyd83.h field83 ∧
    (25600 : Int) ∈ fieldReads floyd83 (List.range floyd83.h) field83 := by
  refine ⟨by decide, by decide +kernel, by decide, witness_SharpenIntermediateRange.2.2.2, by decide⟩

theorem witness_InvertComplementsRaster : floyd83.w = 8 * 1 := by decide

/-- An Ordered8x8 and a None stage. -/
def ordered83 : DitherCfg := { mode := .ordered8x8, threshold := 129, invert := false, w := 8, h := 3 }

def flat83 : DitherCfg := { mode := .flat, threshold := 255, invert := false, w := 8, h := 3 }

theorem witness_OrderedAndFlatPointwise :
    ordered83.mode = .ordered8x8 ∧ flat83.mode = .flat ∧ 7 < ordered83.w ∧ 2 < ordered83.h := by
  decide

theorem witness_FullSamplesDitherWhite :
    (ordered83.mode = .ordered8x8 ∧ ordered83.threshold ≤ 129) ∧ flat83.threshold ≤ 255 ∧
    preparedShape ordered83.w ordered83.h field83 ∧ sampleAt field83 7 1 = 65280 ∧
    7 < ordered83.w ∧ 1 < ordered83.h := by
  refine ⟨by decide, by decide, witness_SharpenIntermediateRange.2.2.2, by decide, by decide, by decide⟩

theorem witness_PackUnpackRoundTrip :
    [[true, false, true, false, true, false, true, false]].length = 1 ∧
    (∀ row ∈ [[true, false, true, false, true, false, true, false]], row.length = 8 * 1) ∧
    ([0xAA#8] : List Byte).length = 1 * 1 := by
  decide

end Sys2Proof.Machine.Tests
end

section
/-! SUPPORT. The clauses of the invariant under every named update of the state. -/

namespace Sys2Proof.Machine

/-! ### The values the host stores -/

/-- The reserved bits are dropped by the mask of a `CTRL` write (10_state.md R70). -/
theorem ctrlMask_clears_reserved (v : Word) : (v &&& ctrlMask) &&& ~~~ctrlMask = 0#32 := by
  rw [BitVec.and_assoc, BitVec.and_not_self]
  exact BitVec.and_zero

/-- The clamp of a LUT write, in numbers (10_state.md R81). -/
theorem toNat_lutStored (v : Word) : (lutStored v).toNat = min (v.toNat % 65536) 65280 := by
  have hlow : (v.extractLsb' 0 16).toNat = v.toNat % 65536 := by simp
  unfold lutStored
  split
  · rw [BitVec.toNat_ofNat]
    omega
  · omega

/-- The entry a LUT write names, and the entries it does not. -/
theorem State.getElem_setLut_lut (s : State) (i j : Fin 256) (v : Word) :
    (s.setLut i v).lut[j.val]'j.isLt =
      if i = j then { value := lutStored v, written := true } else s.lut[j.val]'j.isLt := by
  simp only [State.setLut_lut, Vector.getElem_set, Fin.ext_iff]

theorem ErrCode.toNat_bits_le (code : ErrCode) : code.bits.toNat ≤ 4 := by
  cases code <;> decide

theorem ErrCode.bits_ne_zero (code : ErrCode) : code.bits ≠ 0#4 := by
  cases code <;> decide

theorem ErrCode.eq_busFault_of_bits {code : ErrCode} (h : code.bits = 4#4) : code = .busFault := by
  cases code
  case busFault => rfl
  all_goals exact absurd h (by decide)

/-! ### The invariant after each update -/

/-- The invariant says nothing of the pending inputs, the answers and the free-value counter. -/
theorem State.Inv.withBookkeeping {s : State} (h : s.Inv) (inputs : List Input)
    (answers : List Answer) (fresh : Nat) :
    State.Inv { s with inputs := inputs, answers := answers, fresh := fresh } :=
  { h with }

theorem State.Inv.withInputs {s : State} (h : s.Inv) (inputs : List Input) :
    State.Inv { s with inputs := inputs } :=
  h.withBookkeeping inputs s.answers s.fresh

/-- Of a change to memory the invariant asks the canonical form alone. -/
theorem State.Inv.withMem {s : State} (h : s.Inv) {m : Memory} (hm : Memory.wf m = true) :
    State.Inv { s with mem := m } :=
  { h with memCanonical := hm }

/-- Nor does it constrain the image's size and place: those registers store every bit
(10_state.md R71-R74). -/
theorem State.Inv.withImage {s : State} (h : s.Inv) (geom srcAddr srcStride dstAddr : Word) :
    State.Inv { s with
      geom := geom, srcAddr := srcAddr, srcStride := srcStride, dstAddr := dstAddr } :=
  { h with }

theorem State.Inv.garble {s : State} (h : s.Inv) {addrs : List Nat}
    (ha : ∀ a ∈ addrs, a < addressSpace) : (s.garble addrs).Inv :=
  (h.withMem (State.wf_garble ha h.memCanonical)).withBookkeeping _ _ _

theorem State.Inv.storeOutput {s : State} (h : s.Inv) (out : List Byte) : (s.storeOutput out).Inv :=
  h.withMem (State.wf_storeOutput h.memCanonical)

theorem State.Inv.retireOk {s : State} (h : s.Inv) (tag : BitVec 8) (len : Nat) :
    (s.retireOk tag len).Inv :=
  { h with
    errcodeKnown := Nat.zero_le 4
    errHasCode := fun herr => nomatch herr
    busyPending := fun hbusy => absurd rfl hbusy
    errorWritesNoLength := fun hcode => absurd rfl hcode
    faultAddrOfBusFault := fun _ => rfl
    workGone := rfl }

/-- A completion with an error: only `BUS_FAULT` reports an address (10_state.md R79). -/
theorem State.Inv.retireError {s : State} (h : s.Inv) (tag : BitVec 8) {code : ErrCode} {info : Nat}
    (hinfo : code ≠ .busFault → info = 0) : (s.retireError tag code info).Inv :=
  { h with
    errcodeKnown := code.toNat_bits_le
    errHasCode := fun _ => code.bits_ne_zero
    busyPending := fun hbusy => absurd rfl hbusy
    errorWritesNoLength := fun _ => rfl
    faultAddrOfBusFault := fun hcode => by
      have hne : code ≠ .busFault := fun he => hcode (by simp [he, ErrCode.bits])
      simp [hinfo hne]
    workGone := rfl }

theorem State.Inv.retireBusFault {s : State} (h : s.Inv) (k : JobKind) (tag : BitVec 8) :
    (s.retireBusFault k tag).Inv := by
  have hfresh : State.Inv { s with fresh := s.fresh + 1 } := h.withBookkeeping _ _ _
  have hgarbled := hfresh.garble
    (addrs := (s.dstAddrs (s.outputLength k)).filter fun a => memAdmit s.plat .write a)
    fun a ha => State.lt_of_mem_dstAddrs (List.mem_of_mem_filter ha)
  exact hgarbled.retireError tag fun hne => absurd rfl hne

theorem State.Inv.retireOutput {s : State} (h : s.Inv) (k : JobKind) (tag : BitVec 8)
    (out : List Byte) : (s.retireOutput k tag out).Inv := by
  unfold State.retireOutput
  split
  · exact (h.garble fun _ => State.lt_of_mem_dstAddrs).retireOk tag out.length
  · exact (h.storeOutput out).retireOk tag out.length

theorem State.Inv.clearStatus {s : State} (h : s.Inv) (v : Word) : (s.clearStatus v).Inv :=
  { h with
    errHasCode := fun herr => h.errHasCode (Bool.and_eq_true_iff.1 herr).1
    busyPending := fun hbusy => by simp [h.busyPending hbusy] }

theorem State.Inv.ignoreWrite {s : State} (h : s.Inv) : s.ignoreWrite.Inv := { h with }

theorem State.Inv.accept {s : State} (h : s.Inv) (w : Word) : (s.accept w).Inv :=
  { h with
    errHasCode := fun herr => nomatch herr
    busyPending := fun _ => ⟨rfl, rfl⟩ }

theorem State.Inv.setCtrl {s : State} (h : s.Inv) (v : Word) : (s.setCtrl v).Inv :=
  { h with ctrlReserved := ctrlMask_clears_reserved v }

theorem State.Inv.setLut {s : State} (h : s.Inv) (i : Fin 256) (v : Word) : (s.setLut i v).Inv :=
  { h with
    lutRange := fun j => by
      rw [State.getElem_setLut_lut]
      split
      · intro _
        simp only [toNat_lutStored]
        omega
      · exact h.lutRange j }

theorem State.Inv.writeReg {s : State} (h : s.Inv) (r : Reg) (v : Word) : (s.writeReg r v).Inv := by
  have hcases := s.writeReg_cases r v
  generalize s.writeReg r v = t at hcases ⊢
  rcases hcases with rfl | rfl | ⟨-, rfl⟩ | ⟨-, rfl | rfl | rfl | rfl | rfl | rfl | ⟨i, rfl⟩⟩
  · exact h
  · exact h.clearStatus v
  · exact h.ignoreWrite
  · exact h.setCtrl v
  · exact h.withImage v s.srcAddr s.srcStride s.dstAddr
  · exact h.withImage s.geom v s.srcStride s.dstAddr
  · exact h.withImage s.geom s.srcAddr v s.dstAddr
  · exact h.withImage s.geom s.srcAddr s.srcStride v
  · exact h.accept v
  · exact h.setLut i v

theorem State.inv_reset : State.reset.Inv where
  memCanonical := wf_reset
  ctrlReserved := by decide
  lutRange := fun i => by simp [State.reset]
  errcodeKnown := Nat.zero_le 4
  errHasCode := fun herr => nomatch herr
  busyPending := fun hbusy => absurd rfl hbusy
  errorWritesNoLength := fun _ => rfl
  faultAddrOfBusFault := fun _ => rfl
  workGone := rfl
  platLegal := by decide

theorem State.lt_of_mem_runningWrites {s : State} {a : Nat} (h : a ∈ s.runningWrites) :
    a < addressSpace := by
  unfold State.runningWrites at h
  split at h
  · cases h
  · exact State.lt_of_mem_dstAddrs h

/-- Reset keeps memory canonical and the platform legal; everything else is as in the reset state. -/
theorem State.Inv.resetEvent {s : State} (h : s.Inv) : s.resetEvent.Inv :=
  { State.inv_reset with
    memCanonical := State.wf_garble (fun _ => State.lt_of_mem_runningWrites) h.memCanonical
    platLegal := h.platLegal }

/-! ### The invariant after each kind of step -/

/-- Every command keeps the invariant, whatever its outcome. -/
theorem exec_keeps_inv {i : Instr} {s t : State} (h : s.Inv) (he : exec i s = .next t) : t.Inv := by
  rcases exec_next he with ⟨tag, -, rfl⟩ | ⟨_, _, tag, _, -, rfl⟩ |
    ⟨k, tag, -, ⟨code, -, rfl⟩ | ⟨-, -, rfl⟩ | ⟨-, -, out, -, rfl⟩⟩
  · exact h.retireOk tag 0
  · exact h.retireError tag fun _ => rfl
  · exact h.retireError tag fun _ => rfl
  · exact h.retireBusFault k tag
  · exact h.retireOutput k tag out

theorem engineTurn_keeps_inv {s t : State} (h : s.Inv) (he : engineTurn s = .next t) : t.Inv := by
  cases hj : s.job with
  | none =>
    rw [engineTurn_of_idle hj] at he
    exact Host.Outcome.next.inj he ▸ h
  | some w =>
    rw [engineTurn_of_busy hj] at he
    exact exec_keeps_inv h he

theorem takeInput_keeps_inv {e : Input} {s t : State} (h : s.Inv) (he : takeInput e s = .next t) :
    t.Inv := by
  rcases takeInput_next he with ⟨-, hturn⟩ | ⟨offset, rfl⟩ | ⟨r, v, rfl⟩ | ⟨a, -, rfl⟩ |
    ⟨a, v, -, rfl⟩ | ⟨-, rfl⟩
  · exact engineTurn_keeps_inv h hturn
  · exact h.withBookkeeping _ _ _
  · exact h.writeReg r v
  · exact h.withBookkeeping _ _ _
  · exact h.withMem (wf_writeByte a.isLt h.memCanonical)
  · exact h.resetEvent

/-! ### Whose step it is -/

/-- Nothing pending: it is the engine's turn (40_commands.md R252; log 11). -/
theorem step_of_inputs_nil {s : State} (h : s.inputs = []) : step s = engineTurn s := by
  simp only [step, h]

/-- The oldest pending input is taken (log 11). -/
theorem step_of_inputs_cons {s : State} {e : Input} {rest : List Input} (h : s.inputs = e :: rest) :
    step s = takeInput e { s with inputs := rest } := by
  simp only [step, h]

end Sys2Proof.Machine
end

section
/-! SUPPORT. What a busy engine keeps under a host access, and the register window place by place. -/

namespace Sys2Proof.Machine

/-! ### A busy engine under host accesses -/

/-- A host write that does not race the job names no byte of its read set or write set
(20_memory.md R173). -/
theorem State.not_mem_of_not_races {s : State} {w a : Word} (hj : s.job = some w)
    (hp : s.plat.wf = true) (hr : s.races .write a.toNat = false) :
    a.toNat ∉ s.jobReads w ∧ a.toNat ∉ s.dstAddrs (s.jobWriteLength w) := by
  have hlen := (State.jobWriteLength_lt hp w).le
  simp only [State.races, hj, decide_true, Bool.true_and, Bool.or_eq_false_iff,
    List.contains_eq_mem, decide_eq_false_iff_not] at hr
  obtain ⟨hdst, hread⟩ := hr
  refine ⟨hread, fun hmem => ?_⟩
  rw [(State.inDst_iff a.isLt hlen).2 hmem] at hdst
  cases hdst

/-- A register write to a busy engine changes `STATUS` bits alone (10_state.md R77, R92). -/
theorem State.writeReg_of_busy {s : State} {w : Word} (hj : s.job = some w) (r : Reg) (v : Word) :
    s.writeReg r v = { s with
      done := (s.writeReg r v).done, err := (s.writeReg r v).err, wign := (s.writeReg r v).wign } := by
  have hcases := s.writeReg_cases r v
  generalize s.writeReg r v = t at hcases ⊢
  rcases hcases with rfl | rfl | ⟨-, rfl⟩ | ⟨hidle, -⟩
  · rfl
  · rfl
  · rfl
  · rw [hj] at hidle
    cases hidle

/-- Everything a host access can change while a job runs: `STATUS` bits, bytes outside the job's read
and write sets, and the model's record of answers (10_state.md R92; 20_memory.md R173). -/
theorem takeInput_of_busy {s t : State} {w : Word} {e : Input} (hj : s.job = some w)
    (he : e ≠ .engine) (hr : e ≠ .reset) (hp : s.plat.wf = true) (h : takeInput e s = .next t) :
    t = { s with
      done := t.done, err := t.err, wign := t.wign, mem := t.mem, answers := t.answers
      fresh := t.fresh } ∧
    ∀ a, a ∈ s.jobReads w ∨ a ∈ s.dstAddrs (s.jobWriteLength w) →
      readByte t.mem a = readByte s.mem a := by
  rcases takeInput_next h with ⟨heng, -⟩ | ⟨offset, rfl⟩ | ⟨r, v, rfl⟩ | ⟨a, -, rfl⟩ |
    ⟨a, v, hrace, rfl⟩ | ⟨hreset, -⟩
  · exact absurd heng he
  · exact ⟨rfl, fun _ _ => rfl⟩
  · rw [State.writeReg_of_busy hj r v]
    exact ⟨rfl, fun _ _ => rfl⟩
  · exact ⟨rfl, fun _ _ => rfl⟩
  · obtain ⟨hread, hdst⟩ := State.not_mem_of_not_races hj hp hrace
    refine ⟨rfl, fun b hb => readByte_writeByte_of_ne fun hba => ?_⟩
    subst hba
    exact hb.elim hread hdst
  · exact absurd hreset hr

/-! ### The places of the window -/

/-- The configuration places R92 speaks of: the five configuration registers and the LUT
(10_state.md R92). -/
def Reg.isConfig : Reg → Bool
  | .ctrl => true
  | .geom => true
  | .srcAddr => true
  | .srcStride => true
  | .dstAddr => true
  | .lut _ => true
  | _ => false

/-- The places where a write is dropped: read-only and reserved (10_state.md R84, R85). -/
def Reg.dropsWrites : Reg → Bool
  | .id => true
  | .cap => true
  | .outLen => true
  | .faultAddr => true
  | .bayer _ => true
  | .reserved => true
  | _ => false

theorem State.writeReg_of_dropsWrites {r : Reg} (hr : r.dropsWrites = true) (s : State) (v : Word) :
    s.writeReg r v = s := by
  cases r
  case id | cap | outLen | faultAddr | bayer | reserved => rfl
  all_goals cases hr

theorem State.writeReg_of_isConfig {r : Reg} (hr : r.isConfig = true) {s : State} {w : Word}
    (hj : s.job = some w) (v : Word) : s.writeReg r v = s.ignoreWrite := by
  cases r
  case ctrl | geom | srcAddr | srcStride | dstAddr | lut =>
    simp only [State.writeReg, State.whenIdle_of_busy hj]
  all_goals cases hr

theorem lutOffset_ok (i : Fin 256) : (0x400 + 4 * i.val) % 4 = 0 ∧ 0x400 + 4 * i.val ≤ 0xFFC := by
  omega

/-- The offsets of the configuration registers and of the LUT (10_state.md R55). -/
theorem isConfig_regAt {offset : Nat}
    (h : offset ∈ [0x008, 0x00C, 0x010, 0x014, 0x018] ∨ ∃ i, i < 256 ∧ offset = 0x400 + 4 * i) :
    (regAt offset).isConfig = true := by
  rcases h with h | ⟨i, hi, rfl⟩
  · revert offset
    decide
  · rw [regAt_lut ⟨i, hi⟩]
    rfl

/-- Each of them is one the port answers (20_memory.md R180). -/
theorem configOffset_ok {offset : Nat}
    (h : offset ∈ [0x008, 0x00C, 0x010, 0x014, 0x018] ∨ ∃ i, i < 256 ∧ offset = 0x400 + 4 * i) :
    offset % 4 = 0 ∧ offset ≤ 0xFFC := by
  rcases h with h | ⟨i, hi, rfl⟩
  · revert offset
    decide
  · exact lutOffset_ok ⟨i, hi⟩

/-- The offsets of the read-only registers, of the Bayer window and of the reserved ranges
(10_state.md R55). -/
theorem dropsWrites_regAt {offset : Nat} (h4 : offset % 4 = 0)
    (h : offset ∈ [0x000, 0x004, 0x024, 0x028] ∨ (0x800 ≤ offset ∧ offset < 0x900) ∨
      (0x02C ≤ offset ∧ offset ≤ 0x3FC) ∨ (0x900 ≤ offset ∧ offset ≤ 0xFFC)) :
    (regAt offset).dropsWrites = true := by
  rcases h with h | h | h
  · clear h4
    revert offset
    decide
  · obtain ⟨k, hk, rfl⟩ : ∃ k, k < 64 ∧ offset = 0x800 + 4 * k := ⟨(offset - 0x800) / 4, by omega⟩
    rw [regAt_bayer ⟨k, hk⟩]
    rfl
  · rw [regAt_reserved (h.imp_right And.left) h4]
    rfl

/-- A write that only an idle engine takes, at the offset of its place. -/
theorem hostRegWrite_of_idle {s : State} (hj : s.job = none) {offset : Nat} (h4 : offset % 4 = 0)
    (hle : offset ≤ 0xFFC) {v : Word} {update : State → State}
    (hupdate : s.writeReg (regAt offset) v = s.whenIdle update) :
    hostRegWrite 4 offset v s = .next (update s) := by
  rw [hostRegWrite_of_ok h4 hle, hupdate, State.whenIdle_of_idle hj]

/-- A read of a place that takes no free value records its value and changes nothing else. -/
theorem State.readReg_of_freshUsedBy {s : State} {offset : Nat}
    (h : s.freshUsedBy (regAt offset) = 0) :
    s.readReg offset =
      { s with answers := .reg offset (s.regValue (regAt offset)) :: s.answers } := by
  simp [State.readReg, State.answer, h]

theorem hostRegRead_of_freshUsedBy {s : State} {offset : Nat} (h4 : offset % 4 = 0)
    (hle : offset ≤ 0xFFC) (h : s.freshUsedBy (regAt offset) = 0) :
    hostRegRead 4 offset s =
      .next { s with answers := .reg offset (s.regValue (regAt offset)) :: s.answers } := by
  rw [hostRegRead_of_ok h4 hle, State.readReg_of_freshUsedBy h]

/-! ### Words put together from fields -/

/-- A word of two fields, in numbers. -/
theorem toNat_append_eq {m n : Nat} (x : BitVec m) (y : BitVec n) :
    (x ++ y).toNat = 2 ^ n * x.toNat + y.toNat := by
  rw [BitVec.toNat_append, Nat.shiftLeft_eq, Nat.mul_comm, Nat.two_pow_add_eq_or_of_lt y.isLt]

/-- A half word with zeros above it keeps its value. -/
theorem toNat_zero_append (x : BitVec 16) : (0#16 ++ x).toNat = x.toNat := by
  rw [toNat_append_eq, BitVec.toNat_zero, Nat.mul_zero, Nat.zero_add]

/-- A LUT read in numbers: nothing in [31:16] (10_state.md R82). -/
theorem State.toNat_regValue_lut (s : State) (i : Fin 256) : (s.regValue (.lut i)).toNat =
    (if (s.lut[i.val]'i.isLt).written then (s.lut[i.val]'i.isLt).value
      else Config.freeLutRead s.fresh).toNat :=
  toNat_zero_append _

theorem maxDots_lt_of_wf {p : Platform} (hp : p.wf = true) : p.maxDots < 65536 := by
  simp only [Platform.wf, Bool.and_eq_true, decide_eq_true_eq] at hp
  omega

/-- `MAX_DOTS` of a legal platform fits in the low half of `CAP` (10_state.md R61). -/
theorem State.toNat_capWord {s : State} (hp : s.plat.wf = true) :
    s.capWord.toNat = s.plat.maxDots := by
  rw [State.capWord, toNat_zero_append, BitVec.toNat_ofNat]
  exact Nat.mod_eq_of_lt (maxDots_lt_of_wf hp)

/-- A bit of a word, in numbers. -/
theorem getLsbD_eq_toNat {n : Nat} (v : BitVec n) (i : Nat) :
    v.getLsbD i = (v.toNat / 2 ^ i % 2 == 1) := by
  rw [BitVec.getLsbD, Nat.testBit_eq_decide_div_mod_eq, beq_eq_decide]

/-- The bit of a word whose number has the truth value `b` there. -/
theorem getLsbD_of_toNat {n i : Nat} {v : BitVec n} {b : Bool} (h : v.toNat / 2 ^ i % 2 = b.toNat) :
    v.getLsbD i = b := by
  rw [getLsbD_eq_toNat, h]
  cases b <;> rfl

/-- `STATUS` as a number, field by field (10_state.md R76). -/
theorem State.toNat_statusWord (s : State) : s.statusWord.toNat =
    256 * s.lastTag.toNat + 16 * s.errcode.toNat + 8 * s.wign.toNat + 4 * s.err.toNat +
      2 * s.done.toNat + s.job.isSome.toNat := by
  simp only [State.statusWord, State.busy, toNat_append_eq, BitVec.toNat_ofBool,
    BitVec.toNat_ofNat]
  omega

end Sys2Proof.Machine
end

section
/-! The statements about the step and the register window (10_state.md R51-R92). -/

namespace Sys2Proof.Machine

/-- Settles O11: by whose step it is, then by what that step can do to the clauses. -/
theorem stepKeepsInvariant : Obligations.StepKeepsInvariant := by
  intro s t hinv hstep
  cases hin : s.inputs with
  | nil => exact engineTurn_keeps_inv hinv (step_of_inputs_nil hin ▸ hstep)
  | cons e rest =>
    exact takeInput_keeps_inv (hinv.withInputs rest) (step_of_inputs_cons hin ▸ hstep)

/-- Settles O13: the step takes a host access, and `takeInput_of_busy` says all it can change. -/
theorem busyStepKeepsJobInputs : Obligations.BusyStepKeepsJobInputs := by
  intro s t w e rest hj hin heng hreset hp hstep
  rw [step_of_inputs_cons hin] at hstep
  obtain ⟨hframe, hbytes⟩ :=
    takeInput_of_busy (s := { s with inputs := rest }) hj heng hreset hp hstep
  refine ⟨?_, ?_, ?_, ?_, ?_, ?_, ?_, ?_, ?_, ?_, ?_, ?_, hbytes⟩
  · rw [hframe]
    exact hj
  all_goals rw [hframe]

/-- Settles O15: the places of R92 ignore the write, and every aligned offset can be read. -/
theorem busyConfigWriteIgnored : Obligations.BusyConfigWriteIgnored := by
  intro s w v offset hj hoff
  obtain ⟨h4, hle⟩ := configOffset_ok hoff
  refine ⟨?_, fun o h4 hle => ⟨_, hostRegRead_of_ok h4 hle s⟩⟩
  rw [hostRegWrite_of_ok h4 hle, State.writeReg_of_isConfig (isConfig_regAt hoff) hj]
  rfl

/-- Settles O19: every one of these offsets is a place that drops writes. -/
theorem readOnlyAndReservedWritesDropped : Obligations.ReadOnlyAndReservedWritesDropped := by
  intro s v offset h4 hoff
  have hle : offset ≤ 0xFFC := by
    simp only [List.mem_cons, List.not_mem_nil, or_false] at hoff
    omega
  constructor
  · rw [hostRegWrite_of_ok h4 hle, State.writeReg_of_dropsWrites (dropsWrites_regAt h4 hoff)]
  · intro hres
    have hreg := regAt_reserved (hres.imp_right And.left) h4
    rw [hostRegRead_of_freshUsedBy h4 hle (by rw [hreg]; rfl), hreg]
    rfl

/-- Settles O20: the written entry is `lutStored`, every other one stands. -/
theorem lutWriteStoresClampedValue : Obligations.LutWriteStoresClampedValue := by
  intro s i v hj
  have hwrite : hostRegWrite 4 (0x400 + 4 * i.val) v s = .next (s.setLut i v) := by
    obtain ⟨h4, hle⟩ := lutOffset_ok i
    exact hostRegWrite_of_idle hj h4 hle (update := (·.setLut i v)) (by rw [regAt_lut]; rfl)
  have hentry := s.getElem_setLut_lut i
  refine ⟨s.setLut i v, hwrite, rfl, ?_, ?_, fun j hji => ?_, fun hrange j => ?_⟩
  · rw [hentry, if_pos rfl, toNat_lutStored]
  · rw [hentry, if_pos rfl]
  · rw [hentry, if_neg hji.symm]
  · rw [hentry]
    split
    · simp only [toNat_lutStored]
      omega
    · exact hrange j

/-- Settles O21: by whether the entry was written since reset. -/
theorem lutReadAnswersEntry : Obligations.LutReadAnswersEntry := by
  intro s i
  obtain ⟨h4, hle⟩ := lutOffset_ok i
  refine ⟨_, _, hostRegRead_of_ok h4 hle s, s.readReg_answers _, ?_, fun hw => ?_, fun hw => ?_⟩
  · rw [regAt_lut, State.toNat_regValue_lut]
    exact BitVec.isLt _
  · rw [State.readReg_fresh, regAt_lut, State.toNat_regValue_lut, if_pos hw]
    simp [State.freshUsedBy, hw]
  · rw [State.readReg_fresh, regAt_lut, State.toNat_regValue_lut, hw]
    simp [State.freshUsedBy, hw]

/-- Settles O9: on its turn a busy engine executes the decoded latch. -/
theorem stepRunsLatchedCommand : Obligations.StepRunsLatchedCommand := by
  rintro s w i hj rfl -
  constructor
  · intro hin
    rw [step_of_inputs_nil hin, engineTurn_of_busy hj]
  · intro rest hin
    rw [step_of_inputs_cons hin]
    exact engineTurn_of_busy hj

/-- Settles O14: each offset is the place of its register, and the engine is idle. -/
theorem idleConfigWriteStored : Obligations.IdleConfigWriteStored := by
  intro s v hj
  refine ⟨?_, ?_, ?_, ?_, ?_⟩
  · exact hostRegWrite_of_idle hj (by decide) (by decide) (update := (·.setCtrl v)) rfl
  · exact hostRegWrite_of_idle hj (by decide) (by decide) (update := (·.setGeom v)) rfl
  · exact hostRegWrite_of_idle hj (by decide) (by decide) (update := (·.setSrcAddr v)) rfl
  · exact hostRegWrite_of_idle hj (by decide) (by decide) (update := (·.setSrcStride v)) rfl
  · exact hostRegWrite_of_idle hj (by decide) (by decide) (update := (·.setDstAddr v)) rfl

/-- Settles O18: the write is `clearStatus`, its bits in numbers. -/
theorem statusWriteOneToClear : Obligations.StatusWriteOneToClear := by
  intro s
  have hwrite (v : Word) : hostRegWrite 4 0x020 v s = .next (s.clearStatus v) :=
    hostRegWrite_of_ok (by decide) (by decide) v s
  refine ⟨fun v => ?_, ?_⟩
  · rw [hwrite, State.clearStatus]
    simp only [getLsbD_eq_toNat]
    rfl
  · rw [hwrite]
    simp [State.clearStatus]

/-- Settles O23: every field is a quotient and remainder of `STATUS` as a number. -/
theorem statusWordLayout : Obligations.StatusWordLayout := by
  intro s
  have hword := s.toNat_statusWord
  have hcode := s.errcode.isLt
  have htag := s.lastTag.isLt
  have hbusy := s.job.isSome.toNat_lt
  have hdone := s.done.toNat_lt
  have herr := s.err.toNat_lt
  have hwign := s.wign.toNat_lt
  refine ⟨getLsbD_of_toNat ?_, getLsbD_of_toNat ?_, getLsbD_of_toNat ?_, getLsbD_of_toNat ?_,
    ?_, ?_, ?_⟩
  all_goals omega

/-- Settles O24: `MAX_DOTS` fits in the low half of `CAP` on a legal platform. -/
theorem identificationReads : Obligations.IdentificationReads := by
  intro s hp
  have hcap := State.toNat_capWord hp
  have hlt := maxDots_lt_of_wf hp
  refine ⟨hostRegRead_of_freshUsedBy (by decide) (by decide) rfl,
    ⟨s.capWord, hostRegRead_of_freshUsedBy (by decide) (by decide) rfl, by omega, by omega⟩,
    fun v => ⟨?_, ?_⟩⟩
  all_goals exact hostRegWrite_of_ok (by decide) (by decide) v s

/-- Settles O25: the window goes row by row through the ROM, and the ROM lists every one of 0..63. -/
theorem bayerWindowReads : Obligations.BayerWindowReads := by
  constructor
  · intro s k
    rw [regAt_bayer, State.regValue]
    congr 1
    revert k
    decide
  · intro n hn
    have hmem : n ∈ bayerRom := by
      revert n
      decide
    have hidx : bayerRom.idxOf n < 64 := List.idxOf_lt_length_of_mem hmem
    refine ⟨bayerRom.idxOf n / 8, bayerRom.idxOf n % 8, by omega, by omega, ?_⟩
    rw [bayer, Nat.div_add_mod, List.getD_eq_getElem?_getD, List.getElem?_idxOf hmem]
    rfl

end Sys2Proof.Machine
end

section
/-! SUPPORT. System memory under the host's accesses and under the commands. -/

namespace Sys2Proof.Machine

/-! ### Register accesses the port takes -/

/-- The accesses the port takes, as propositions (20_memory.md R180). -/
theorem regAccessOk_iff {size offset : Nat} :
    regAccessOk size offset = true ↔ size = 4 ∧ offset % 4 = 0 ∧ offset ≤ 0xFFC := by
  simp only [regAccessOk, Bool.and_eq_true, decide_eq_true_eq, and_assoc]

theorem hostRegRead_of_not_ok {size offset : Nat} (h : ¬ regAccessOk size offset = true) (s : State) :
    hostRegRead size offset s = .refused (.badRegisterAccess size offset) := if_neg h

theorem hostRegWrite_of_not_ok {size offset : Nat} (h : ¬ regAccessOk size offset = true) (v : Word)
    (s : State) : hostRegWrite size offset v s = .refused (.badRegisterAccess size offset) := if_neg h

/-- A register read that is taken is `readReg` at its offset. -/
theorem hostRegRead_next {size offset : Nat} {s t : State} (h : hostRegRead size offset s = .next t) :
    t = s.readReg offset := by
  by_cases hok : regAccessOk size offset = true
  · obtain ⟨rfl, h4, hle⟩ := regAccessOk_iff.1 hok
    rw [hostRegRead_of_ok h4 hle] at h
    exact (Host.Outcome.next.inj h).symm
  · rw [hostRegRead_of_not_ok hok] at h
    cases h

/-! ### Races with the running job -/

/-- An idle engine races with nothing. -/
theorem State.races_of_idle {s : State} (hj : s.job = none) (k : AccessKind) (a : Nat) :
    s.races k a = false := by
  simp only [State.races, hj]

/-- What races a running job: any access to its write set, and a write to its read set
(20_memory.md R173). -/
theorem State.races_iff_of_busy {s : State} {w a : Word} {k : AccessKind} (hj : s.job = some w)
    (hp : s.plat.wf = true) : s.races k a.toNat = true ↔
      a.toNat ∈ s.dstAddrs (s.jobWriteLength w) ∨ (k = .write ∧ a.toNat ∈ s.jobReads w) := by
  have hlen := (State.jobWriteLength_lt hp w).le
  simp only [State.races, hj, Bool.or_eq_true, Bool.and_eq_true, decide_eq_true_eq,
    List.contains_eq_mem, State.inDst_iff a.isLt hlen]

/-- An access races nothing when it races no job that runs. -/
theorem State.races_eq_false {s : State} {a : Word} {k : AccessKind} (hp : s.plat.wf = true)
    (h : ∀ w, s.job = some w →
      a.toNat ∉ s.dstAddrs (s.jobWriteLength w) ∧ (k = .write → a.toNat ∉ s.jobReads w)) :
    s.races k a.toNat = false := by
  cases hj : s.job with
  | none => exact State.races_of_idle hj k a.toNat
  | some w =>
    obtain ⟨hdst, hread⟩ := h w hj
    refine Bool.eq_false_iff.2 fun hrace => ?_
    rcases (State.races_iff_of_busy hj hp).1 hrace with hmem | ⟨hk, hmem⟩
    · exact hdst hmem
    · exact hread hk hmem

theorem hostMemRead_of_races {s : State} {a : Word} (h : s.races .read a.toNat = true) :
    hostMemRead a s = .refused (.hostRace a) := if_pos h

theorem hostMemWrite_of_races {s : State} {a : Word} (h : s.races .write a.toNat = true) (v : Byte) :
    hostMemWrite a v s = .refused (.hostRace a) := if_pos h

theorem hostMemRead_of_not_races {s : State} {a : Word} (h : s.races .read a.toNat = false) :
    hostMemRead a s = .next (s.answer (.mem a (readByte s.mem a.toNat))) := by
  simp only [hostMemRead, h, Bool.false_eq_true, if_false]

theorem hostMemWrite_of_not_races {s : State} {a : Word} (h : s.races .write a.toNat = false)
    (v : Byte) :
    hostMemWrite a v s = .next { s with mem := writeByte s.mem a.toNat v } := by
  simp only [hostMemWrite, h, Bool.false_eq_true, if_false]

/-! ### The command in the job latch -/

/-- A command word as a number, field by field (30_encoding.md R200). -/
theorem toNat_commandWord (op rsv0 : BitVec 4) (tag : BitVec 8) (rsv1 : BitVec 16) :
    (commandWord op rsv0 tag rsv1).toNat =
      65536 * rsv1.toNat + 256 * tag.toNat + 16 * rsv0.toNat + op.toNat := by
  simp only [commandWord, toNat_append_eq]
  omega

theorem opField_commandWord (op rsv0 : BitVec 4) (tag : BitVec 8) (rsv1 : BitVec 16) :
    opField (commandWord op rsv0 tag rsv1) = op := by
  apply BitVec.eq_of_toNat_eq
  rw [opField, BitVec.extractLsb'_toNat, toNat_commandWord, Nat.shiftRight_eq_div_pow]
  omega

theorem rsv0Field_commandWord (op rsv0 : BitVec 4) (tag : BitVec 8) (rsv1 : BitVec 16) :
    rsv0Field (commandWord op rsv0 tag rsv1) = rsv0 := by
  apply BitVec.eq_of_toNat_eq
  rw [rsv0Field, BitVec.extractLsb'_toNat, toNat_commandWord, Nat.shiftRight_eq_div_pow]
  omega

theorem rsv1Field_commandWord (op rsv0 : BitVec 4) (tag : BitVec 8) (rsv1 : BitVec 16) :
    rsv1Field (commandWord op rsv0 tag rsv1) = rsv1 := by
  apply BitVec.eq_of_toNat_eq
  rw [rsv1Field, BitVec.extractLsb'_toNat, toNat_commandWord, Nat.shiftRight_eq_div_pow]
  omega

/-- A word with both reserved fields 0 decodes by its `OP` (30_encoding.md R203). -/
theorem decode_commandWord {op : BitVec 4} {tag : BitVec 8} {i : Instr}
    (h : legalCommand op tag = some i) : decode (commandWord op 0#4 tag 0#16) = i := by
  simp only [decode, opField_commandWord, rsv0Field_commandWord, rsv1Field_commandWord,
    Laws.TagPlace.tagField_commandWord, h, and_self, if_true]

/-- The word of a memory job decodes to that job (30_encoding.md R200, R201). -/
theorem decode_encode_commandOf (k : JobKind) (tag : BitVec 8) :
    decode (encode (commandOf k tag)) = commandOf k tag := by
  cases k
  case run | prep | dither | pack => exact decode_commandWord rfl

@[simp] theorem jobKind_commandOf (k : JobKind) (tag : BitVec 8) :
    jobKind (commandOf k tag) = some k := by
  cases k
  case run | prep | dither | pack => rfl

/-- The write set of a job that passes its launch checks is its output (20_memory.md R166). -/
theorem State.jobWriteLength_commandOf {s : State} {k : JobKind} (h : s.launchError k = none)
    (tag : BitVec 8) : s.jobWriteLength (encode (commandOf k tag)) = s.outputLength k := by
  simp [State.jobWriteLength, decode_encode_commandOf, h]

theorem State.jobReady_iff {s : State} {k : JobKind} :
    s.jobReady k = true ↔ s.launchError k = none ∧ s.badAddrs k = [] := by
  simp [State.jobReady]

/-! ### The lookups of a job -/

theorem mem_flatten_raster {α : Type} {w h : Nat} {f : Nat → Nat → α} {v : α} :
    v ∈ (raster w h f).flatten ↔ ∃ y, y < h ∧ ∃ x, x < w ∧ f x y = v := by
  simp [raster, ← List.flatMap_def]

/-- No lookup of `prepare` meets an unwritten entry exactly when all are written
(41_preprocess.md R311). -/
theorem State.firstUnwritten_eq_none_iff {s : State} :
    s.firstUnwritten s.lumaField = none ↔ s.lookupsWritten := by
  have hfield : s.lumaField = raster s.paddedWidth s.height s.lookedUp := rfl
  simp only [State.firstUnwritten, hfield, List.find?_eq_none, mem_flatten_raster,
    Bool.not_eq_true, Option.isNone_eq_false_iff, State.lookupsWritten]
  constructor
  · exact fun h y hy x hx => h _ ⟨y, hy, x, hx, rfl⟩
  · rintro h _ ⟨y, hy, x, hx, rfl⟩
    exact h y hy x hx

/-- A ready job whose lookups are all written completes with an output of its length. -/
theorem exec_of_ready_of_lookupsWritten {s : State} {k : JobKind} (hready : s.jobReady k = true)
    (hlut : (k = .run ∨ k = .prep) → s.lookupsWritten) (tag : BitVec 8) :
    ∃ out : List Byte, out.length = s.outputLength k ∧
      exec (commandOf k tag) s = .next (s.retireOutput k tag out) := by
  obtain ⟨hl, hb⟩ := State.jobReady_iff.1 hready
  rcases exec_of_ready (tag := tag) hl hb with ⟨y, hk, hy, -⟩ | hok
  · rw [State.firstUnwritten_eq_none_iff.2 (hlut hk)] at hy
    cases hy
  · exact hok

/-! ### What a completion writes -/

theorem State.reportsOk_retireOk (s : State) (tag : BitVec 8) {n : Nat} (hn : n < addressSpace) :
    (s.retireOk tag n).ReportsOk tag n where
  done := rfl
  err := rfl
  errcode := rfl
  lastTag := rfl
  outLen := Nat.mod_eq_of_lt hn
  faultAddr := rfl
  job := rfl
  work := rfl

/-- A job whose buffers overlap frees its write set (20_memory.md R174; log 8). -/
theorem State.retireOutput_of_overlaps {s : State} {k : JobKind} (h : s.overlaps k = true)
    (tag : BitVec 8) (out : List Byte) :
    s.retireOutput k tag out = (s.garble (s.dstAddrs out.length)).retireOk tag out.length :=
  if_pos h

/-- Overlapping or not, a completion without error writes to its output bytes alone. -/
theorem State.readByte_retireOutput_of_not_mem {s : State} {k : JobKind} {tag : BitVec 8}
    {out : List Byte} {a : Nat} (h : a ∉ s.dstAddrs out.length) :
    readByte (s.retireOutput k tag out).mem a = readByte s.mem a := by
  unfold State.retireOutput
  split
  · exact State.readByte_garble_of_not_mem h
  · exact State.readByte_storeOutput_of_not_mem h

/-- A `BUS_FAULT` frees the admitted bytes of the write set alone (60_exceptions.md R453). -/
theorem State.readByte_retireBusFault_of_not_mem {s : State} {k : JobKind} {tag : BitVec 8} {a : Nat}
    (h : ¬ (a ∈ s.dstAddrs (s.outputLength k) ∧ memAdmit s.plat .write a = true)) :
    readByte (s.retireBusFault k tag).mem a = readByte s.mem a := by
  have hfree : a ∉ (s.dstAddrs (s.outputLength k)).filter fun a => memAdmit s.plat .write a := by
    rwa [List.mem_filter]
  exact State.readByte_garble_of_not_mem (s := { s with fresh := s.fresh + 1 }) hfree

/-- With nothing in `Bad`, every byte of the write set is admitted (60_exceptions.md R452). -/
theorem State.memAdmit_of_badAddrs_eq_nil {s : State} {k : JobKind} {a : Nat}
    (hb : s.badAddrs k = []) (ha : a ∈ s.dstAddrs (s.outputLength k)) :
    memAdmit s.plat .write a = true := by
  by_contra hrefused
  have hbad : a ∈ s.badAddrs k := State.mem_badAddrs.2 (.inr ⟨ha, Bool.eq_false_iff.2 hrefused⟩)
  rw [hb] at hbad
  cases hbad

/-- A byte that a command changes is an admitted byte of the write set of a job that passed its launch
checks (20_memory.md R150, R166). -/
theorem exec_changed_byte {i : Instr} {s t : State} {a : Nat} (he : exec i s = .next t)
    (hne : readByte t.mem a ≠ readByte s.mem a) :
    ∃ k tag, i = commandOf k tag ∧ s.launchError k = none ∧
      a ∈ s.dstAddrs (s.outputLength k) ∧ memAdmit s.plat .write a = true := by
  rcases exec_next he with ⟨tag, -, rfl⟩ | ⟨_, _, tag, _, -, rfl⟩ |
    ⟨k, tag, hi, ⟨code, -, rfl⟩ | ⟨hl, -, rfl⟩ | ⟨hl, hb, out, hlen, rfl⟩⟩
  · exact absurd rfl hne
  · exact absurd rfl hne
  · exact absurd rfl hne
  · refine ⟨k, tag, hi, hl, ?_⟩
    by_contra hout
    exact hne (State.readByte_retireBusFault_of_not_mem hout)
  · have ha : a ∈ s.dstAddrs (s.outputLength k) := by
      by_contra hout
      exact hne (State.readByte_retireOutput_of_not_mem (hlen ▸ hout))
    exact ⟨k, tag, hi, hl, ha, State.memAdmit_of_badAddrs_eq_nil hb ha⟩

/-! ### The configuration under every completion -/

theorem State.KeepsConfig.refl (s : State) : s.KeepsConfig s :=
  ⟨rfl, rfl, rfl, rfl, rfl, rfl, rfl, rfl, rfl, rfl⟩

section
variable {s t : State} (h : s.KeepsConfig t)
include h

theorem State.KeepsConfig.retireOk (tag : BitVec 8) (len : Nat) :
    s.KeepsConfig (t.retireOk tag len) := { h with }

theorem State.KeepsConfig.retireError (tag : BitVec 8) (code : ErrCode) (info : Nat) :
    s.KeepsConfig (t.retireError tag code info) := { h with }

theorem State.KeepsConfig.garble (addrs : List Nat) : s.KeepsConfig (t.garble addrs) := { h with }

theorem State.KeepsConfig.storeOutput (out : List Byte) : s.KeepsConfig (t.storeOutput out) :=
  { h with }

theorem State.KeepsConfig.withFresh (n : Nat) : s.KeepsConfig { t with fresh := n } := { h with }

theorem State.KeepsConfig.retireBusFault (k : JobKind) (tag : BitVec 8) :
    s.KeepsConfig (t.retireBusFault k tag) :=
  ((h.withFresh _).garble _).retireError tag .busFault _

theorem State.KeepsConfig.retireOutput (k : JobKind) (tag : BitVec 8) (out : List Byte) :
    s.KeepsConfig (t.retireOutput k tag out) := by
  unfold State.retireOutput
  split
  · exact (h.garble _).retireOk tag _
  · exact (h.storeOutput out).retireOk tag _

end

/-- No command changes the configuration, whatever its outcome (40_commands.md R253). -/
theorem exec_keepsConfig {i : Instr} {s t : State} (he : exec i s = .next t) : s.KeepsConfig t := by
  have hs := State.KeepsConfig.refl s
  rcases exec_next he with ⟨tag, -, rfl⟩ | ⟨_, _, tag, _, -, rfl⟩ |
    ⟨k, tag, -, ⟨code, -, rfl⟩ | ⟨-, -, rfl⟩ | ⟨-, -, out, -, rfl⟩⟩
  · exact hs.retireOk tag 0
  · exact hs.retireError tag .illegalCmd 0
  · exact hs.retireError tag code 0
  · exact hs.retireBusFault k tag
  · exact hs.retireOutput k tag out

end Sys2Proof.Machine
end

section
/-! The statements about system memory and the accesses to it (20_memory.md R150-R182). -/

namespace Sys2Proof.Machine

/-- Settles O27: an access races exactly the sets of R173, and one that does not is performed. -/
theorem hostMemoryAccess : Obligations.HostMemoryAccess := by
  intro s a v hp
  refine ⟨fun w hj => ⟨fun hdst => ⟨?_, ?_⟩, fun hread => ?_⟩, fun hfree => ?_, fun hfree hwf => ?_⟩
  · exact hostMemRead_of_races ((State.races_iff_of_busy hj hp).2 (.inl hdst))
  · exact hostMemWrite_of_races ((State.races_iff_of_busy hj hp).2 (.inl hdst)) v
  · exact hostMemWrite_of_races ((State.races_iff_of_busy hj hp).2 (.inr ⟨rfl, hread⟩)) v
  · exact hostMemRead_of_not_races (State.races_eq_false hp fun w hj => ⟨hfree w hj, nofun⟩)
  · have hrace : s.races .write a.toNat = false :=
      State.races_eq_false hp fun w hj => ⟨(hfree w hj).1, fun _ => (hfree w hj).2⟩
    exact ⟨_, hostMemWrite_of_not_races hrace v, rfl, wf_writeByte a.isLt hwf,
      readByte_writeByte_self hwf, fun b hb => readByte_writeByte_of_ne hb⟩

/-- Settles O36: the job completes by `retireOk` on its write set freed, whose addresses are
distinct. -/
theorem overlapFreesWholeWriteSet : Obligations.OverlapFreesWholeWriteSet := by
  intro s k tag hwf hp hready hoverlap hlut
  obtain ⟨hl, -⟩ := State.jobReady_iff.1 hready
  have hlt := State.outputLength_lt hp hl
  obtain ⟨out, hlen, hexec⟩ := exec_of_ready_of_lookupsWritten hready hlut tag
  rw [State.retireOutput_of_overlaps hoverlap, hlen] at hexec
  refine ⟨_, hexec, State.reportsOk_retireOk _ tag hlt, exec_keepsConfig hexec, ?_, fun j hj => ?_,
    fun a ha => State.readByte_garble_of_not_mem ha⟩
  · rw [State.retireOk_fresh, State.garble_fresh, State.length_dstAddrs]
  · have hj' : j < (s.dstAddrs (s.outputLength k)).length := by rwa [State.length_dstAddrs]
    have hbyte := State.readByte_garble (s.nodup_dstAddrs hlt.le)
      (fun _ => State.lt_of_mem_dstAddrs) hwf hj'
    rwa [State.getElem_dstAddrs] at hbyte

/-- Settles O38: a changed byte lies in the write set of the job the command is. -/
theorem commandWritesOnlyWriteSet : Obligations.CommandWritesOnlyWriteSet := by
  intro i s t _ he
  refine ⟨exec_keepsConfig he, fun a ha => ?_⟩
  by_contra hne
  obtain ⟨k, tag, rfl, hl, hmem, -⟩ := exec_changed_byte he hne
  rw [State.jobWriteLength_commandOf hl] at ha
  exact ha hmem

/-- Settles O39: a changed byte is one the platform admits. -/
theorem refusedByteNeverWritten : Obligations.RefusedByteNeverWritten := by
  intro i s t a he hrefused
  by_contra hne
  obtain ⟨_, _, -, -, -, hadmit⟩ := exec_changed_byte he hne
  rw [hrefused] at hadmit
  cases hadmit

/-- Settles O22: a read that is taken is `readReg`; none of the nine registers takes a free value. -/
theorem registerReadHasNoSideEffect : Obligations.RegisterReadHasNoSideEffect := by
  constructor
  · intro s t size offset hread
    rw [hostRegRead_next hread]
    exact ⟨rfl, s.readReg_answers offset⟩
  · intro s
    refine ⟨?_, ?_, ?_, ?_, ?_, ?_, ?_, ?_, ?_⟩
    all_goals exact hostRegRead_of_freshUsedBy (by decide) (by decide) rfl

/-- Settles O26: by the accesses the port takes. -/
theorem registerAccessWidthAndAlignment : Obligations.RegisterAccessWidthAndAlignment := by
  intro s size offset v
  constructor
  · intro hbad
    have hnot : ¬ regAccessOk size offset = true := by
      rw [regAccessOk_iff]
      omega
    exact ⟨hostRegRead_of_not_ok hnot s, hostRegWrite_of_not_ok hnot v s⟩
  · rintro ⟨rfl, h4, hle⟩
    exact ⟨⟨_, hostRegRead_of_ok h4 hle s⟩, ⟨_, hostRegWrite_of_ok h4 hle v s⟩⟩

end Sys2Proof.Machine
end

section
/-! SUPPORT. The fields of a command word, and the two answers of the decoder (30_encoding.md R200-R206). -/

namespace Sys2Proof.Machine

/-! ### The fields of a word -/

theorem toNat_opField (w : Word) : (opField w).toNat = w.toNat % 16 := by
  rw [opField, BitVec.extractLsb'_toNat, Nat.shiftRight_zero]

theorem toNat_rsv0Field (w : Word) : (rsv0Field w).toNat = w.toNat / 16 % 16 := by
  rw [rsv0Field, BitVec.extractLsb'_toNat, Nat.shiftRight_eq_div_pow]

theorem toNat_tagField (w : Word) : (tagField w).toNat = w.toNat / 256 % 256 := by
  rw [tagField, BitVec.extractLsb'_toNat, Nat.shiftRight_eq_div_pow]

theorem toNat_rsv1Field (w : Word) : (rsv1Field w).toNat = w.toNat / 65536 := by
  rw [rsv1Field, BitVec.extractLsb'_toNat, Nat.shiftRight_eq_div_pow]
  omega

/-- The four fields tile the word (30_encoding.md R200). -/
theorem commandWord_fields (w : Word) :
    commandWord (opField w) (rsv0Field w) (tagField w) (rsv1Field w) = w := by
  apply BitVec.eq_of_toNat_eq
  rw [toNat_commandWord, toNat_opField, toNat_rsv0Field, toNat_tagField, toNat_rsv1Field]
  omega

/-! ### A word read as an illegal command -/

/-- The `illegal` command of a word's fields; well formed exactly when the word is not legal. -/
def illegalOf (w : Word) : Instr := .illegal (opField w) (rsv0Field w) (tagField w) (rsv1Field w)

theorem encode_illegalOf (w : Word) : encode (illegalOf w) = w := commandWord_fields w

theorem illegalOf_commandWord (op rsv0 : BitVec 4) (tag : BitVec 8) (rsv1 : BitVec 16) :
    illegalOf (commandWord op rsv0 tag rsv1) = .illegal op rsv0 tag rsv1 := by
  rw [illegalOf, opField_commandWord, rsv0Field_commandWord, Laws.TagPlace.tagField_commandWord,
    rsv1Field_commandWord]

theorem wf_illegalOf_eq_false_iff {w : Word} : (illegalOf w).wf = false ↔
    (opField w).toNat ≤ 4 ∧ rsv0Field w = 0#4 ∧ rsv1Field w = 0#16 := by
  simp [illegalOf, Instr.wf, and_assoc]

/-- The legal words of 30_encoding.md R203, in numbers. -/
theorem wf_illegalOf_eq_false_iff_toNat {w : Word} : (illegalOf w).wf = false ↔
    w.toNat % 16 ≤ 4 ∧ w.toNat / 16 % 16 = 0 ∧ w.toNat / 65536 = 0 := by
  rw [wf_illegalOf_eq_false_iff, ← BitVec.toNat_inj, ← BitVec.toNat_inj, toNat_opField,
    toNat_rsv0Field, toNat_rsv1Field]
  rfl

/-! ### What the decoder answers -/

/-- The five rows of the opcode table (30_encoding.md R201). -/
theorem legalCommand_of_le {op : BitVec 4} (h : op.toNat ≤ 4) (tag : BitVec 8) :
    ∃ i, legalCommand op tag = some i ∧ encode i = commandWord op 0#4 tag 0#16 ∧
      (i = .nop tag ∨ i = .run tag ∨ i = .prep tag ∨ i = .dither tag ∨ i = .pack tag) := by
  obtain rfl | rfl | rfl | rfl | rfl : op = 0#4 ∨ op = 1#4 ∨ op = 2#4 ∨ op = 3#4 ∨ op = 4#4 := by
    revert op
    decide
  · exact ⟨.nop tag, rfl, rfl, .inl rfl⟩
  · exact ⟨.run tag, rfl, rfl, .inr (.inl rfl)⟩
  · exact ⟨.prep tag, rfl, rfl, .inr (.inr (.inl rfl))⟩
  · exact ⟨.dither tag, rfl, rfl, .inr (.inr (.inr (.inl rfl)))⟩
  · exact ⟨.pack tag, rfl, rfl, .inr (.inr (.inr (.inr rfl)))⟩

/-- The reserved values of `OP` name no command (30_encoding.md R203). -/
theorem legalCommand_of_lt {op : BitVec 4} (h : 4 < op.toNat) (tag : BitVec 8) :
    legalCommand op tag = none := by
  unfold legalCommand
  split
  case h_6 => rfl
  all_goals omega

/-- A legal word decodes to one of the five commands, whose word it is (30_encoding.md R203). -/
theorem decode_of_legal {w : Word} (h : (illegalOf w).wf = false) :
    encode (decode w) = w ∧ ∃ tag, decode w = .nop tag ∨ decode w = .run tag ∨
      decode w = .prep tag ∨ decode w = .dither tag ∨ decode w = .pack tag := by
  obtain ⟨hop, hrsv0, hrsv1⟩ := wf_illegalOf_eq_false_iff.1 h
  obtain ⟨i, hlegal, hword, hform⟩ := legalCommand_of_le hop (tagField w)
  rw [← hrsv0, ← hrsv1, commandWord_fields] at hword
  have hdecode : decode w = i := by simp only [decode, hrsv0, hrsv1, hlegal, and_self, if_true]
  rw [hdecode]
  exact ⟨hword, tagField w, hform⟩

/-- Every other word decodes to its own fields, never to a neighbouring command
(30_encoding.md R206). -/
theorem decode_of_illegal {w : Word} (h : (illegalOf w).wf = true) : decode w = illegalOf w := by
  by_cases hrsv : rsv0Field w = 0#4 ∧ rsv1Field w = 0#16
  · have hop : 4 < (opField w).toNat := by
      by_contra hle
      rw [wf_illegalOf_eq_false_iff.2 ⟨by omega, hrsv⟩] at h
      cases h
    simp only [decode, legalCommand_of_lt hop, ite_self, illegalOf]
  · simp only [decode, if_neg hrsv, illegalOf]

/-- An illegal word ends with `ILLEGAL_CMD`, whatever the state (40_commands.md R290). -/
theorem exec_decode_of_illegal {w : Word}
    (h : ¬ (w.toNat % 16 ≤ 4 ∧ w.toNat / 16 % 16 = 0 ∧ w.toNat / 65536 = 0)) (s : State) :
    exec (decode w) s = .next (s.retireError (tagField w) .illegalCmd 0) := by
  rw [← wf_illegalOf_eq_false_iff_toNat, Bool.not_eq_false] at h
  rw [decode_of_illegal h]
  rfl

end Sys2Proof.Machine
end

section
/-! The statements about the encoding of commands (30_encoding.md R200-R232). -/

namespace Sys2Proof.Machine

/-- Settles O1: the word of an opcode decodes by its row, the word of an illegal command to its fields. -/
theorem decodeOfEncode : Obligations.DecodeOfEncode := by
  intro i hwf
  cases i with
  | nop | run | prep | dither | pack => exact decode_commandWord rfl
  | illegal op rsv0 tag rsv1 =>
    have hfields := illegalOf_commandWord op rsv0 tag rsv1
    rw [encode, decode_of_illegal (hfields ▸ hwf), hfields]

/-- Settles O2: by whether the word's fields are legal. -/
theorem encodeOfDecode : Obligations.EncodeOfDecode := by
  intro w
  cases hwf : (illegalOf w).wf with
  | false =>
    obtain ⟨hword, tag, hform⟩ := decode_of_legal hwf
    refine ⟨hword, ?_⟩
    rcases hform with h | h | h | h | h
    all_goals rw [h, Instr.wf]
  | true =>
    rw [decode_of_illegal hwf]
    exact ⟨encode_illegalOf w, hwf⟩

/-- Settles O3: a word with illegal fields decodes to them, so to none of the five commands. -/
theorem legalWordIffFieldsLegal : Obligations.LegalWordIffFieldsLegal := by
  refine ⟨fun w => ?_, fun w s hj => ?_, fun w s hillegal => ?_⟩
  · rw [← wf_illegalOf_eq_false_iff_toNat]
    refine ⟨fun ⟨tag, hform⟩ => ?_, fun hlegal => (decode_of_legal hlegal).2⟩
    by_contra hillegal
    rw [decode_of_illegal (Bool.eq_true_of_not_eq_false hillegal)] at hform
    rcases hform with h | h | h | h | h
    all_goals cases h
  · exact ⟨s.accept w,
      hostRegWrite_of_idle hj (by decide) (by decide) (update := (·.accept w)) rfl, rfl⟩
  · exact ⟨_, exec_decode_of_illegal hillegal s, rfl, rfl⟩

/-- Settles O4: the scripts, the commands and the `CTRL` values are computed; the illegal words end
with `ILLEGAL_CMD` from every state. -/
theorem exampleEncodings : Obligations.ExampleEncodings := by
  refine ⟨rfl, rfl, rfl, rfl, rfl, fun w hw s => ?_, ?_⟩
  · have hillegal : ¬ (w.toNat % 16 ≤ 4 ∧ w.toNat / 16 % 16 = 0 ∧ w.toNat / 65536 = 0) := by
      simp only [List.mem_cons, List.not_mem_nil, or_false] at hw
      rcases hw with rfl | rfl | rfl
      all_goals decide
    exact ⟨_, exec_decode_of_illegal hillegal s, rfl⟩
  · decide

end Sys2Proof.Machine
end

section
/-! SUPPORT. What a completion reports, the run of a busy engine up to its completion, and the two ways
a job ends before its stages: a launch check and a refused byte. -/

namespace Sys2Proof.Machine

/-! ### The tag and the completion status -/

theorem tagField_encode (i : Instr) : tagField (encode i) = i.tag := by
  cases i
  all_goals exact Laws.TagPlace.tagField_commandWord _ _ _ _

/-- The decoder keeps the tag of every word, legal or not (30_encoding.md R202). -/
theorem tag_decode (w : Word) : (decode w).tag = tagField w := by
  rw [← tagField_encode, (encodeOfDecode w).1]

theorem tagField_eq_ofNat (w : Word) : tagField w = BitVec.ofNat 8 (w.toNat / 256) := by
  apply BitVec.eq_of_toNat_eq
  rw [toNat_tagField, BitVec.toNat_ofNat]

@[simp] theorem tag_commandOf (k : JobKind) (tag : BitVec 8) : (commandOf k tag).tag = tag := by
  cases k
  all_goals rfl

theorem State.reportsError_retireError (s : State) (tag : BitVec 8) (code : ErrCode) (info : Nat) :
    (s.retireError tag code info).ReportsError tag code.bits :=
  ⟨rfl, rfl, rfl, rfl, rfl, rfl, rfl⟩

theorem State.reportsError_retireBusFault (s : State) (k : JobKind) (tag : BitVec 8) :
    (s.retireBusFault k tag).ReportsError tag 4#4 :=
  State.reportsError_retireError _ tag .busFault _

theorem State.retireOutput_of_not_overlaps {s : State} {k : JobKind} (h : s.overlaps k = false)
    (tag : BitVec 8) (out : List Byte) :
    s.retireOutput k tag out = (s.storeOutput out).retireOk tag out.length := by
  rw [State.retireOutput, h, if_neg Bool.false_ne_true]

/-- Overlapping or not, a job that computed its output ends by `retireOk`. -/
theorem State.exists_retireOutput_eq (s : State) (k : JobKind) (tag : BitVec 8) (out : List Byte) :
    ∃ u : State, s.retireOutput k tag out = u.retireOk tag out.length := by
  cases h : s.overlaps k with
  | true => exact ⟨_, State.retireOutput_of_overlaps h tag out⟩
  | false => exact ⟨_, State.retireOutput_of_not_overlaps h tag out⟩

/-- Every completion is a `retireOk` or a `retireError` with the command's tag, and only a
`BUS_FAULT` reports an address (40_commands.md R253; 60_exceptions.md R450). -/
theorem exec_next_retires {i : Instr} {s t : State} (he : exec i s = .next t) :
    (∃ u n, t = State.retireOk u i.tag n) ∨
    ∃ u code info, t = State.retireError u i.tag code info ∧ (code ≠ .busFault → info = 0) := by
  rcases exec_next he with ⟨tag, rfl, rfl⟩ | ⟨_, _, tag, _, rfl, rfl⟩ |
    ⟨k, tag, rfl, ⟨code, -, rfl⟩ | ⟨-, -, rfl⟩ | ⟨-, -, out, -, rfl⟩⟩
  · exact .inl ⟨s, 0, rfl⟩
  · exact .inr ⟨s, .illegalCmd, 0, rfl, fun _ => rfl⟩
  · rw [tag_commandOf]
    exact .inr ⟨s, code, 0, rfl, fun _ => rfl⟩
  · rw [tag_commandOf]
    exact .inr ⟨_, .busFault, _, rfl, fun hne => absurd rfl hne⟩
  · rw [tag_commandOf]
    obtain ⟨u, hu⟩ := s.exists_retireOutput_eq k tag out
    exact .inl ⟨u, out.length, hu⟩

/-! ### Runs -/

theorem run_succ_of_step {M : Host.Core} {s s' : M.State} (h : M.step s = .next s') (n : Nat) :
    M.run (n + 1) s = M.run n s' := by
  rw [Host.Core.run, h]

/-- A run that nothing stops takes a first step. -/
theorem exists_step_of_run {M : Host.Core} {s t : M.State} {n : Nat}
    (h : M.run (n + 1) s = .next t) : ∃ s', M.step s = .next s' ∧ M.run n s' = .next t := by
  cases hstep : M.step s with
  | next s' => exact ⟨s', rfl, run_succ_of_step hstep n ▸ h⟩
  | fault f =>
    rw [Host.Core.run, hstep] at h
    cases h
  | refused r =>
    rw [Host.Core.run, hstep] at h
    cases h

/-- A host access leaves the latch of a busy engine and the pending inputs
(10_state.md R91, R92). -/
theorem takeInput_keeps_job {e : Input} {s t : State} {w : Word} (hj : s.job = some w)
    (he : e ≠ .engine) (hr : e ≠ .reset) (h : takeInput e s = .next t) :
    t.job = some w ∧ t.inputs = s.inputs := by
  rcases takeInput_next h with ⟨heng, -⟩ | ⟨offset, rfl⟩ | ⟨r, v, rfl⟩ | ⟨a, -, rfl⟩ |
    ⟨a, v, -, rfl⟩ | ⟨hreset, -⟩
  · exact absurd heng he
  · exact ⟨hj, rfl⟩
  · rw [State.writeReg_of_busy hj r v]
    exact ⟨hj, rfl⟩
  · exact ⟨hj, rfl⟩
  · exact ⟨hj, rfl⟩
  · exact absurd hreset hr

/-- On its turn a busy engine completes the latched command (40_commands.md R252, R253). -/
theorem engineTurn_completes {s t : State} {w : Word} (hj : s.job = some w)
    (h : engineTurn s = .next t) : t.job = none ∧ t.done = true ∧ t.lastTag = tagField w := by
  rw [engineTurn_of_busy hj] at h
  rcases exec_next_retires h with ⟨u, n, rfl⟩ | ⟨u, code, info, rfl, -⟩
  · exact ⟨rfl, rfl, tag_decode w⟩
  · exact ⟨rfl, rfl, tag_decode w⟩

/-- A busy engine that no pending input resets completes within its pending inputs and one turn. -/
theorem exists_completion_of_run {w : Word} {inputs : List Input} {s t : State}
    (hin : s.inputs = inputs) (hj : s.job = some w) (hreset : Input.reset ∉ inputs)
    (hrun : Host.Core.run Sys2Proof.core (inputs.length + 1) s = .next t) :
    ∃ k u, k ≤ inputs.length + 1 ∧ Host.Core.run Sys2Proof.core k s = .next u ∧
      State.job u = none ∧ State.done u = true ∧ State.lastTag u = tagField w := by
  induction inputs generalizing s with
  | nil =>
    obtain ⟨u, hstep, -⟩ := exists_step_of_run hrun
    have hturn : engineTurn s = .next u := (step_of_inputs_nil hin).symm.trans hstep
    exact ⟨1, u, le_rfl, run_succ_of_step hstep 0, engineTurn_completes hj hturn⟩
  | cons e rest ih =>
    obtain ⟨hne, hrest⟩ := not_or.1 (mt List.mem_cons.2 hreset)
    obtain ⟨u, hstep, htail⟩ := exists_step_of_run hrun
    have htake : takeInput e { s with inputs := rest } = .next u :=
      (step_of_inputs_cons hin).symm.trans hstep
    by_cases heng : e = .engine
    · subst heng
      exact ⟨1, u, by simp, run_succ_of_step hstep 0,
        engineTurn_completes (s := { s with inputs := rest }) hj htake⟩
    · obtain ⟨hju, hinu⟩ :=
        takeInput_keeps_job (s := { s with inputs := rest }) hj heng (Ne.symm hne) htake
      obtain ⟨k, v, hk, hkrun, hv⟩ := ih hinu hju hrest htail
      exact ⟨k + 1, v, Nat.succ_le_succ hk, (run_succ_of_step hstep k).trans hkrun, hv⟩

/-! ### The launch checks -/

theorem State.srcWidth_eq (s : State) : s.srcWidth = s.geom.toNat % 65536 := by
  rw [State.srcWidth, BitVec.extractLsb'_toNat, Nat.shiftRight_zero]

theorem State.height_eq (s : State) : s.height = s.geom.toNat / 65536 := by
  rw [State.height, BitVec.extractLsb'_toNat, Nat.shiftRight_eq_div_pow]
  omega

theorem State.infmt_eq_reserved_iff {s : State} :
    s.infmt = .reserved ↔ s.ctrl.toNat / 64 % 4 = 3 := by
  have hbits : (s.ctrl.extractLsb' 6 2).toNat = s.ctrl.toNat / 64 % 4 := by
    rw [BitVec.extractLsb'_toNat, Nat.shiftRight_eq_div_pow]
  unfold State.infmt
  rw [hbits]
  have hlt : s.ctrl.toNat / 64 % 4 < 4 := Nat.mod_lt _ (by decide)
  generalize s.ctrl.toNat / 64 % 4 = n at hlt
  interval_cases n
  all_goals decide

theorem State.launchError_of_format {s : State} {k : JobKind} (hk : k = .run ∨ k = .prep)
    (h : s.infmt = .reserved) : s.launchError k = some .badFormat :=
  if_pos ⟨hk, h⟩

theorem State.launchError_of_geometry {s : State} {k : JobKind}
    (hf : ¬ ((k = .run ∨ k = .prep) ∧ s.infmt = .reserved))
    (h : s.srcWidth = 0 ∨ s.plat.maxDots < s.srcWidth ∨ s.height = 0) :
    s.launchError k = some .badGeometry := by
  rw [State.launchError, if_neg hf, if_pos h]

/-! ### `BUS_FAULT` -/

theorem State.lt_of_mem_badAddrs {s : State} {k : JobKind} {a : Nat} (h : a ∈ s.badAddrs k) :
    a < addressSpace := by
  rcases State.mem_badAddrs.1 h with ⟨hread, -⟩ | ⟨hdst, -⟩
  · exact State.lt_of_mem_readSet hread
  · exact State.lt_of_mem_dstAddrs hdst

/-- The reported address is the picked element of `Bad`, whole (60_exceptions.md R452). -/
theorem State.toNat_faultAddr_retireBusFault {s : State} {k : JobKind} (hb : s.badAddrs k ≠ [])
    (tag : BitVec 8) : (s.retireBusFault k tag).faultAddr.toNat =
      (s.badAddrs k).getD (Config.freePick s.fresh % (s.badAddrs k).length) 0 :=
  Nat.mod_eq_of_lt (State.lt_of_mem_badAddrs (State.picked_mem_badAddrs _ hb))

/-- The admitted bytes of the write set take the free values after the pick
(60_exceptions.md R453). -/
theorem State.readByte_retireBusFault {s : State} {k : JobKind} (hwf : Memory.wf s.mem = true)
    (hlen : s.outputLength k ≤ addressSpace) (tag : BitVec 8) {j : Nat}
    (hj : j < ((s.dstAddrs (s.outputLength k)).filter (memAdmit s.plat .write)).length) :
    readByte (s.retireBusFault k tag).mem
        ((s.dstAddrs (s.outputLength k)).filter (memAdmit s.plat .write))[j] =
      Config.freeByte (s.fresh + 1 + j) :=
  State.readByte_garble (s := { s with fresh := s.fresh + 1 }) ((s.nodup_dstAddrs hlen).filter _)
    (fun _ ha => State.lt_of_mem_dstAddrs (List.mem_of_mem_filter ha)) hwf hj

end Sys2Proof.Machine
end

section
/-! SUPPORT. The output of a memory job: its bytes, where they stand, and what they depend on. -/

namespace Sys2Proof.Machine

/-! ### Rows of equal length -/

/-- Item `b` of block `y`, when every item of a list gives a block of `n`. -/
theorem getElem?_flatMap_of_length {α β : Type} {f : α → List β} {n : Nat} {l : List α}
    (hf : ∀ a ∈ l, (f a).length = n) {y b : Nat} (hb : b < n) :
    (l.flatMap f)[y * n + b]? = l[y]?.bind fun a => (f a)[b]? := by
  induction l generalizing y with
  | nil => simp
  | cons a l ih =>
    simp only [List.mem_cons, forall_eq_or_imp] at hf
    obtain ⟨ha, hl⟩ := hf
    cases y with
    | zero => simp [List.getElem?_append_left (ha ▸ hb)]
    | succ y =>
      have hidx : (y + 1) * n + b = (f a).length + (y * n + b) := by rw [ha]; ring
      rw [List.flatMap_cons, hidx, List.getElem?_append_right (Nat.le_add_right _ _),
        Nat.add_sub_cancel_left, ih hl, List.getElem?_cons_succ]

theorem Shaped.getElem?_row {α : Type} {w h y : Nat} {F : List (List α)} (hF : Shaped w h F)
    (hy : y < h) : F[y]? = some (F.getD y []) := by
  have hy' : y < F.length := hF.1 ▸ hy
  rw [List.getD_eq_getElem _ _ hy', List.getElem?_eq_getElem hy']

theorem Shaped.getD_mem {α : Type} {w h y : Nat} {F : List (List α)} (hF : Shaped w h F)
    (hy : y < h) : F.getD y [] ∈ F := List.mem_of_getElem? (hF.getElem?_row hy)

theorem Shaped.getElem?_getD {α : Type} {w h x y : Nat} {F : List (List α)} (hF : Shaped w h F)
    (hx : x < w) (hy : y < h) (d : α) : (F.getD y [])[x]? = some ((F.getD y []).getD x d) := by
  have hx' : x < (F.getD y []).length := by rwa [hF.2 _ (hF.getD_mem hy)]
  rw [List.getD_eq_getElem _ _ hx', List.getElem?_eq_getElem hx']

/-- Rasters of functions that agree on the image are equal. -/
theorem raster_congr {α : Type} {w h : Nat} {f g : Nat → Nat → α}
    (hfg : ∀ x y, x < w → y < h → f x y = g x y) : raster w h f = raster w h g := by
  refine List.map_congr_left fun y hy => List.map_congr_left fun x hx => ?_
  exact hfg x y (List.mem_range.1 hx) (List.mem_range.1 hy)

/-- A field is the raster of its samples. -/
theorem Shaped.eq_raster {w h : Nat} {F : Field} (hF : Shaped w h F) :
    F = raster w h (sampleAt F) := by
  obtain ⟨hlen, hrows⟩ := hF
  refine List.ext_getElem (by simp [raster, hlen]) fun y hy _ => ?_
  refine List.ext_getElem (by simp [raster, hrows _ (List.getElem_mem hy)]) fun x hx _ => ?_
  simp [raster, sampleAt, hy, hx]

/-! ### The bytes of a raster -/

/-- Bit `7 - i` of a byte into which the pixels below `n` were set, each at its own bit. -/
theorem getLsbD_foldl_setBits (p : Nat → Bool) {n i : Nat} (hn : n ≤ 8) (hi : i < 8) :
    ((List.range n).foldl (fun acc i => if p i then acc ||| (1#8 <<< (7 - i)) else acc) 0#8).getLsbD
      (7 - i) = (decide (i < n) && p i) := by
  induction n with
  | zero => simp
  | succ n ih =>
    have hbit : (1#8 <<< (7 - n)).getLsbD (7 - i) = decide (i = n) := by
      have : ∀ n < 8, ∀ i < 8, (1#8 <<< (7 - n)).getLsbD (7 - i) = decide (i = n) := by decide
      exact this n (by omega) i hi
    rw [List.range_succ, List.foldl_append, List.foldl_cons, List.foldl_nil]
    by_cases hin : i = n
    · subst hin
      cases hp : p i <;> simp [hp, hbit, ih (by omega)]
    · have hlt : i < n + 1 ↔ i < n := by omega
      cases hp : p n <;> simp [hbit, ih (by omega), hin, hlt]

/-- Pixel `8b + i` of a row is bit `7 - i` of its byte `b` (43_pack.md R400). -/
theorem getLsbD_packByte (row : List Bool) (b : Nat) {i : Nat} (hi : i < 8) :
    (packByte row b).getLsbD (7 - i) = row.getD (8 * b + i) false := by
  rw [packByte, getLsbD_foldl_setBits (fun i => row.getD (8 * b + i) false) le_rfl hi]
  simp [hi]

/-- Byte `b` of packed row `y` (43_pack.md R402). -/
theorem getElem?_packBits {w h bpl b y : Nat} {B : Bits} (hB : Shaped w h B) (hy : y < h)
    (hb : b < bpl) : (packBits bpl B)[y * bpl + b]? = some (packByte (B.getD y []) b) := by
  rw [packBits, getElem?_flatMap_of_length (fun _ _ => by simp) hb, hB.getElem?_row hy,
    Option.bind_some, List.getElem?_map, List.getElem?_range hb, Option.map_some]

theorem State.rasterOutput_of_frame {s : State} (hf : s.frame = true) (B : Bits) :
    s.rasterOutput B = frameHeader s.bytesPerLine s.height ++ packBits s.bytesPerLine B ++
      frameTrailer :=
  if_pos hf

theorem State.rasterOutput_of_not_frame {s : State} (hf : s.frame = false) (B : Bits) :
    s.rasterOutput B = packBits s.bytesPerLine B := by
  simp only [State.rasterOutput, hf, Bool.false_eq_true, if_false]

/-- The raster begins at byte `rasterBase` of the output (43_pack.md R410). -/
theorem State.getElem?_rasterOutput {s : State} {B : Bits} {j : Nat}
    (hj : j < (packBits s.bytesPerLine B).length) :
    (s.rasterOutput B)[s.rasterBase + j]? = (packBits s.bytesPerLine B)[j]? := by
  cases hf : s.frame with
  | false => simp [State.rasterOutput_of_not_frame hf, State.rasterBase, hf]
  | true =>
    rw [State.rasterOutput_of_frame hf, State.rasterBase, if_pos hf, List.append_assoc,
      List.getElem?_append_right (by simp), length_frameHeader, Nat.add_sub_cancel_left,
      List.getElem?_append_left hj]

theorem State.bytesPerLine_lt (s : State) : s.bytesPerLine < 65536 := by
  have hw : s.srcWidth < 65536 := BitVec.isLt _
  simp only [State.bytesPerLine, State.paddedWidth, roundup8]
  omega

/-- The bytes before the raster, in numbers (43_pack.md R410). -/
theorem map_toNat_frameHeader {bpl h : Nat} (hb : bpl < 65536) (hh : h < 65536) :
    (frameHeader bpl h).map BitVec.toNat = [0x1B, 0x40, 0x1B, 0x61, 0x01, 0x1D, 0x76, 0x30, 0x00,
      bpl % 256, bpl / 256, h % 256, h / 256] := by
  have hb' : bpl / 256 < 256 := by omega
  have hh' : h / 256 < 256 := by omega
  simp [frameHeader, Nat.mod_eq_of_lt hb', Nat.mod_eq_of_lt hh']

/-- The memory of `t` holds the bytes of `out` from the `DST_ADDR` of `s` on (20_memory.md R166). -/
def State.HoldsOutput (s t : State) (out : List Byte) : Prop :=
  ∀ j b, out[j]? = some b → readByte t.mem (s.dstByteAddr j) = b

/-- A byte of the output, in numbers. -/
theorem State.HoldsOutput.toNat_readByte {s t : State} {out : List Byte} (h : s.HoldsOutput t out)
    {j n : Nat} (hj : (out.map BitVec.toNat)[j]? = some n) :
    (readByte t.mem (s.dstByteAddr j)).toNat = n := by
  rw [List.getElem?_map, Option.map_eq_some_iff] at hj
  obtain ⟨b, hb, rfl⟩ := hj
  rw [h j b hb]

/-- The output of a raster job, once in memory, is the raster with its framing
(43_pack.md R400, R410). -/
theorem State.holdsRaster_of_holdsOutput {s t : State} {B : Bits}
    (hB : Shaped s.paddedWidth s.height B) (hout : s.HoldsOutput t (s.rasterOutput B)) :
    s.HoldsRaster t (bitAt B) where
  pixels x y hx hy := by
    have hb : x / 8 < s.bytesPerLine := by
      simp only [State.bytesPerLine, State.paddedWidth, roundup8] at hx ⊢
      omega
    have hbyte := getElem?_packBits hB hy hb
    have hlt := (List.getElem?_eq_some_iff.1 hbyte).1
    rw [Nat.add_assoc, hout _ _ ((State.getElem?_rasterOutput hlt).trans hbyte),
      getLsbD_packByte _ _ (Nat.mod_lt _ (by decide)), Nat.div_add_mod]
    rfl
  header hf j hj := by
    refine hout.toNat_readByte ?_
    have hj' : j < ((frameHeader s.bytesPerLine s.height).map BitVec.toNat).length := by simpa
    rw [State.rasterOutput_of_frame hf, List.append_assoc, List.map_append,
      List.getElem?_append_left hj', map_toNat_frameHeader s.bytesPerLine_lt s.height_lt]
    rw [List.getD_eq_getElem?_getD, List.getElem?_eq_getElem (by simpa using hj), Option.getD_some]
  trailer hf j hj := by
    refine hout.toNat_readByte ?_
    have hlen : ((frameHeader s.bytesPerLine s.height ++ packBits s.bytesPerLine B).map
        BitVec.toNat).length = 13 + s.bytesPerLine * s.height := by simp [hB.1]
    rw [State.rasterOutput_of_frame hf, List.map_append, ← hlen,
      List.getElem?_append_right (Nat.le_add_right _ _), Nat.add_sub_cancel_left]
    interval_cases j
    all_goals rfl

/-! ### The bytes of a field -/

/-- The two bytes of sample `(x, y)` (20_memory.md R167). -/
theorem getElem?_fieldBytes {w h x y c : Nat} {G : Field} (hG : Shaped w h G) (hx : x < w)
    (hy : y < h) (hc : c < 2) :
    (fieldBytes G)[2 * (y * w + x) + c]? = (sampleBytes (sampleAt G x y))[c]? := by
  have hrow : ∀ row ∈ G, (row.flatMap sampleBytes).length = w * 2 := fun row hrow => by
    simp [List.length_flatMap, sampleBytes, hG.2 row hrow]
  have hidx : 2 * (y * w + x) + c = y * (w * 2) + (x * 2 + c) := by ring
  rw [fieldBytes, hidx, getElem?_flatMap_of_length hrow (by omega), hG.getElem?_row hy,
    Option.bind_some, getElem?_flatMap_of_length (n := 2) (fun _ _ => rfl) hc,
    hG.getElem?_getD hx hy 0, Option.bind_some]
  rfl

/-- A 16-bit sample from its two bytes, low byte first (20_memory.md R155). -/
theorem toNat_sampleBytes {v : Int} (h0 : 0 ≤ v) (h : v ≤ 65535) :
    ((BitVec.ofInt 8 v).toNat + 256 * (BitVec.ofInt 8 (v / 256)).toNat : Int) = v := by
  simp only [BitVec.toNat_ofInt]
  omega

/-- Sample `(x, y)` of a field whose bytes are in memory. -/
theorem State.HoldsOutput.sample {s t : State} {w h x y : Nat} {G : Field}
    (hout : s.HoldsOutput t (fieldBytes G)) (hG : Shaped w h G) (hx : x < w) (hy : y < h)
    (h0 : 0 ≤ sampleAt G x y) (h1 : sampleAt G x y ≤ 65535) :
    ((readByte t.mem (s.dstByteAddr (2 * (y * w + x)))).toNat +
      256 * (readByte t.mem (s.dstByteAddr (2 * (y * w + x) + 1))).toNat : Int) =
      sampleAt G x y := by
  have hlow := hout _ _ (getElem?_fieldBytes hG hx hy (c := 0) (by decide))
  have hhigh := hout _ _ (getElem?_fieldBytes hG hx hy (c := 1) (by decide))
  rw [Nat.add_zero] at hlow
  rw [hlow, hhigh]
  exact toNat_sampleBytes h0 h1

/-! ### The prepared field -/

theorem State.shaped_preparedField (s : State) :
    Shaped s.paddedWidth s.height s.preparedField := by
  simp only [State.preparedField]
  split
  · exact shaped_raster _ _ _
  · exact shaped_raster _ _ _

theorem map_raster {α β : Type} (w h : Nat) (f : Nat → Nat → α) (g : α → β) :
    ((raster w h f).map fun row => row.map g) = raster w h fun x y => g (f x y) := by
  simp [raster]

/-- With every lookup written, `prepare` answers the prepared field
(41_preprocess.md R300, R311). -/
theorem State.prepare_of_lookupsWritten {s : State} (h : s.lookupsWritten) :
    s.prepare = .ok s.preparedField := by
  have hgamma : s.gammaField s.lumaField =
      raster s.paddedWidth s.height fun x y => (s.lutSample (s.lookedUp x y)).getD 0 :=
    map_raster _ _ s.lookedUp _
  simp only [State.prepare, State.firstUnwritten_eq_none_iff.2 h, State.preparedField, hgamma]

theorem clamp_full_mem (v : Int) : 0 ≤ clamp v 0 full ∧ clamp v 0 full ≤ 65280 := by
  unfold clamp full
  split
  · decide
  · split <;> omega

/-- A sample of the prepared field is within a bound on the LUT entries and `FULL`
(41_preprocess.md R300). -/
theorem State.sampleAt_preparedField_mem {s : State} {bound : Int} (hfull : 65280 ≤ bound)
    (hlut : ∀ y v, s.lutSample y = some v → 0 ≤ v ∧ v ≤ bound) {x y : Nat} (hx : x < s.paddedWidth)
    (hy : y < s.height) :
    0 ≤ sampleAt s.preparedField x y ∧ sampleAt s.preparedField x y ≤ bound := by
  simp only [State.preparedField]
  split
  · rw [sharpenField, sampleAt_raster _ hx hy]
    exact (clamp_full_mem _).imp_right fun h => h.trans hfull
  · rw [sampleAt_raster _ hx hy]
    cases hv : s.lutSample (s.lookedUp x y) with
    | none => exact ⟨le_rfl, (by decide : (0 : Int) ≤ 65280).trans hfull⟩
    | some v => exact hlut _ v hv

/-- A LUT sample is the value of a written entry (41_preprocess.md R311). -/
theorem State.lutSample_eq_some {s : State} {y : Nat} {v : Int} (h : s.lutSample y = some v) :
    ∃ i : Fin 256, (s.lut[i.val]'i.isLt).written = true ∧
      v = (s.lut[i.val]'i.isLt).value.toNat := by
  unfold State.lutSample at h
  split at h
  · rename_i e he
    obtain ⟨hy, rfl⟩ := Vector.getElem?_eq_some_iff.1 he
    split at h
    · rename_i hw
      exact ⟨⟨y, hy⟩, hw, (Option.some.inj h).symm⟩
    · cases h
  · cases h

theorem State.lutSample_le {s : State} {y : Nat} {v : Int} (h : s.lutSample y = some v) :
    0 ≤ v ∧ v ≤ 65535 := by
  obtain ⟨i, -, rfl⟩ := State.lutSample_eq_some h
  have := (s.lut[i.val]'i.isLt).value.isLt
  omega

theorem State.Inv.lutSample_le {s : State} (hs : s.Inv) {y : Nat} {v : Int}
    (h : s.lutSample y = some v) : 0 ≤ v ∧ v ≤ 65280 := by
  obtain ⟨i, hw, rfl⟩ := State.lutSample_eq_some h
  have := hs.lutRange i hw
  omega

/-! ### What a job that succeeds answers -/

/-- The output bytes of a job that passes its checks, or the model fault that stops it
(40_commands.md R270-R285). -/
def State.jobOutput (s : State) : JobKind → Except Fault (List Byte)
  | .run => s.prepare.map fun G => s.rasterOutput (ditherBits s.ditherCfg G)
  | .prep => s.prepare.map fieldBytes
  | .dither => .ok (s.rasterOutput (ditherBits s.ditherCfg s.sampleField))
  | .pack => .ok (s.rasterOutput s.monoBits)

/-- How a job that passes its checks ends: with its output, or by the fault that stops it. -/
def State.conclude (s : State) (k : JobKind) (tag : BitVec 8) :
    Except Fault (List Byte) → Host.Outcome State Fault Refusal
  | .error f => .fault f
  | .ok out => .next (s.retireOutput k tag out)

/-- A job that passes its checks is concluded with its output (40_commands.md R253, R255). -/
theorem exec_eq_conclude {s : State} {k : JobKind} (hl : s.launchError k = none)
    (hb : s.badAddrs k = []) (tag : BitVec 8) :
    exec (commandOf k tag) s = s.conclude k tag (s.jobOutput k) := by
  cases k with
  | run =>
    refine (execRun_of_ready hl hb).trans ?_
    rw [State.jobOutput]
    cases s.prepare
    all_goals rfl
  | prep =>
    refine (execPrep_of_ready hl hb).trans ?_
    rw [State.jobOutput]
    cases s.prepare
    all_goals rfl
  | dither => exact execDither_of_ready hl hb
  | pack => exact execPack_of_ready hl hb

/-- An output has the length of 40_commands.md R256. -/
theorem State.length_of_jobOutput {s : State} {k : JobKind} {out : List Byte}
    (h : s.jobOutput k = .ok out) : out.length = s.outputLength k := by
  cases k with
  | run =>
    cases hG : s.prepare with
    | error f =>
      rw [State.jobOutput, hG] at h
      cases h
    | ok G =>
      rw [State.jobOutput, hG] at h
      cases h
      exact State.length_rasterOutput (shaped_ditherBits s.ditherCfg G).1
  | prep =>
    cases hG : s.prepare with
    | error f =>
      rw [State.jobOutput, hG] at h
      cases h
    | ok G =>
      rw [State.jobOutput, hG] at h
      cases h
      exact length_fieldBytes (State.shaped_prepare hG)
  | dither =>
    cases h
    exact State.length_rasterOutput (shaped_ditherBits s.ditherCfg _).1
  | pack =>
    cases h
    exact State.length_rasterOutput (shaped_raster _ _ _).1

/-- What a completed job leaves: its status, the configuration kept, its output in place, and every
other byte kept (40_commands.md R253). -/
structure State.CompletesTo (s t : State) (k : JobKind) (tag : BitVec 8) (out : List Byte) :
    Prop where
  reportsOk   : t.ReportsOk tag (s.outputLength k)
  keepsConfig : s.KeepsConfig t
  length_eq   : out.length = s.outputLength k
  holdsOutput : s.HoldsOutput t out
  frame       : ∀ a, a ∉ s.dstAddrs (s.outputLength k) → readByte t.mem a = readByte s.mem a

/-- A ready job without overlap completes to its output. -/
theorem exec_completesTo {s : State} {k : JobKind} {out : List Byte} (hwf : Memory.wf s.mem = true)
    (hp : s.plat.wf = true) (hready : s.jobReady k = true) (hover : s.overlaps k = false)
    (hout : s.jobOutput k = .ok out) (tag : BitVec 8) :
    ∃ t, exec (commandOf k tag) s = .next t ∧ s.CompletesTo t k tag out := by
  obtain ⟨hl, hb⟩ := State.jobReady_iff.1 hready
  have hlen := State.length_of_jobOutput hout
  have hexec : exec (commandOf k tag) s = .next (s.retireOutput k tag out) := by
    rw [exec_eq_conclude hl hb, hout]
    rfl
  have hlt : out.length < addressSpace := hlen ▸ State.outputLength_lt hp hl
  have hkeeps := exec_keepsConfig hexec
  rw [State.retireOutput_of_not_overlaps hover] at hexec hkeeps
  refine ⟨_, hexec, hlen ▸ State.reportsOk_retireOk _ tag hlt, hkeeps, hlen, fun j b hj => ?_,
    fun a ha => State.readByte_storeOutput_of_not_mem (hlen ▸ ha)⟩
  obtain ⟨hj', rfl⟩ := List.getElem?_eq_some_iff.1 hj
  exact State.readByte_storeOutput hlt.le hwf hj'

theorem State.jobOutput_run {s : State} (h : s.lookupsWritten) :
    s.jobOutput .run = .ok (s.rasterOutput (ditherBits s.ditherCfg s.preparedField)) := by
  rw [State.jobOutput, State.prepare_of_lookupsWritten h]
  rfl

theorem State.jobOutput_prep {s : State} (h : s.lookupsWritten) :
    s.jobOutput .prep = .ok (fieldBytes s.preparedField) := by
  rw [State.jobOutput, State.prepare_of_lookupsWritten h]
  rfl

theorem State.HoldsRaster.congr {s t : State} {bit bit' : Nat → Nat → Bool}
    (h : s.HoldsRaster t bit) (heq : ∀ x y, x < s.paddedWidth → y < s.height → bit x y = bit' x y) :
    s.HoldsRaster t bit' :=
  { h with pixels := fun x y hx hy => (h.pixels x y hx hy).trans (heq x y hx hy) }

theorem State.bitAt_monoBits {s : State} {x y : Nat} (hx : x < s.paddedWidth) (hy : y < s.height) :
    bitAt s.monoBits x y = decide (x < s.srcWidth ∧
      readByte s.mem ((s.srcAddr.toNat + y * s.srcStride.toNat + x) % 4294967296) ≠ 0#8) := by
  rw [State.monoBits, bitAt_raster _ hx hy, State.srcByte, State.srcByteAddr, wrapAddr, Nat.mul_one,
    Nat.add_zero, Bool.decide_and]
  simp only [ne_eq, BitVec.toNat_eq, BitVec.toNat_zero]

end Sys2Proof.Machine
end

section
/-! SUPPORT. What a job depends on. -/

namespace Sys2Proof.Machine

/-! ### Machines that agree on the registers -/

/-- Two machines agree on the registers a job reads, on the LUT and on the platform. -/
structure State.SameRegs (s s' : State) : Prop where
  ctrl      : s'.ctrl = s.ctrl
  geom      : s'.geom = s.geom
  srcAddr   : s'.srcAddr = s.srcAddr
  srcStride : s'.srcStride = s.srcStride
  dstAddr   : s'.dstAddr = s.dstAddr
  lut       : s'.lut = s.lut
  plat      : s'.plat = s.plat

section
variable {s s' : State} (h : s.SameRegs s')
include h

/-- The second machine is the first one with other status, latch, memory and bookkeeping. -/
theorem State.SameRegs.eq_with : s' = { s with
    done := s'.done, err := s'.err, wign := s'.wign, errcode := s'.errcode, lastTag := s'.lastTag
    outLen := s'.outLen, faultAddr := s'.faultAddr, job := s'.job, work := s'.work, mem := s'.mem
    inputs := s'.inputs, answers := s'.answers, fresh := s'.fresh } := by
  rw [← h.ctrl, ← h.geom, ← h.srcAddr, ← h.srcStride, ← h.dstAddr, ← h.lut, ← h.plat]

theorem State.SameRegs.launchError (k : JobKind) : s'.launchError k = s.launchError k := by
  rw [h.eq_with]
  rfl

theorem State.SameRegs.jobReady (k : JobKind) : s'.jobReady k = s.jobReady k := by
  rw [h.eq_with]
  rfl

theorem State.SameRegs.overlaps (k : JobKind) : s'.overlaps k = s.overlaps k := by
  rw [h.eq_with]
  rfl

theorem State.SameRegs.paddedWidth : s'.paddedWidth = s.paddedWidth := by
  rw [h.eq_with]
  rfl

theorem State.SameRegs.srcWidth : s'.srcWidth = s.srcWidth := by
  rw [h.eq_with]
  rfl

theorem State.SameRegs.height : s'.height = s.height := by
  rw [h.eq_with]
  rfl

theorem State.SameRegs.infmt : s'.infmt = s.infmt := by
  rw [h.eq_with]
  rfl

theorem State.SameRegs.ditherCfg : s'.ditherCfg = s.ditherCfg := by
  rw [h.eq_with]
  rfl

theorem State.SameRegs.rasterOutput (B : Bits) : s'.rasterOutput B = s.rasterOutput B := by
  rw [h.eq_with]
  rfl

/-- `prepare` depends on the registers, the LUT and the luminance alone (41_preprocess.md R300). -/
theorem State.SameRegs.prepare (hY : s'.lumaField = s.lumaField) : s'.prepare = s.prepare := by
  unfold State.prepare
  rw [hY, h.eq_with]
  rfl

/-- A source byte in the read set is the same in two memories that agree there
(20_memory.md R161). -/
theorem State.SameRegs.srcByte {k : JobKind} {bpp : Nat} (hbpp : s.bytesRead k = bpp)
    (hmem : ∀ a ∈ s.readSet k, readByte s'.mem a = readByte s.mem a) {x y c : Nat}
    (hx : x < s.srcWidth) (hy : y < s.height) (hc : c < bpp) :
    s'.srcByte bpp x y c = s.srcByte bpp x y c := by
  subst hbpp
  have haddr : s'.srcByteAddr (s.bytesRead k) x y c = s.srcByteAddr (s.bytesRead k) x y c := by
    rw [h.eq_with]
    rfl
  rw [State.srcByte, State.srcByte, haddr,
    hmem _ (State.mem_readSet.2 ⟨y, hy, x, hx, c, hc, rfl⟩)]

/-- The luminance depends on the bytes of the pixel alone (41_preprocess.md R303, R304). -/
theorem State.SameRegs.luma {x y : Nat} (hbytes : ∀ c, c < s.infmt.bytesPerPixel →
    s'.srcByte s.infmt.bytesPerPixel x y c = s.srcByte s.infmt.bytesPerPixel x y c) :
    s'.luma x y = s.luma x y := by
  simp only [State.luma, h.infmt]
  generalize s.infmt = fmt at hbytes
  cases fmt with
  | y8 => exact hbytes 0 (by decide)
  | rgb888 | rgba8888 =>
    simp only [hbytes 0 (by decide), hbytes 1 (by decide), hbytes 2 (by decide)]
  | reserved => rfl

/-- Two rasters of the padded image are equal when they agree on the source columns and hold the
same value in the padding columns. -/
theorem State.SameRegs.raster_eq {α : Type} {f g : Nat → Nat → α} {pad : α}
    (hf : ∀ x y, ¬ x < s.srcWidth → f x y = pad) (hg : ∀ x y, ¬ x < s.srcWidth → g x y = pad)
    (hfg : ∀ x y, x < s.srcWidth → y < s.height → f x y = g x y) :
    raster s'.paddedWidth s'.height f = raster s.paddedWidth s.height g := by
  rw [h.paddedWidth, h.height]
  refine raster_congr fun x y _ hy => ?_
  by_cases hx : x < s.srcWidth
  · exact hfg x y hx hy
  · rw [hf x y hx, hg x y hx]

theorem State.SameRegs.lumaField {k : JobKind} (hk : s.bytesRead k = s.infmt.bytesPerPixel)
    (hmem : ∀ a ∈ s.readSet k, readByte s'.mem a = readByte s.mem a) :
    s'.lumaField = s.lumaField := by
  have hw := h.srcWidth
  refine h.raster_eq (pad := 255) (fun x y hx => if_neg (hw ▸ hx)) (fun x y hx => if_neg hx)
    fun x y hx hy => ?_
  rw [if_pos (hw ▸ hx), if_pos hx]
  exact h.luma fun c hc => h.srcByte hk hmem hx hy hc

theorem State.SameRegs.sampleField
    (hmem : ∀ a ∈ s.readSet .dither, readByte s'.mem a = readByte s.mem a) :
    s'.sampleField = s.sampleField := by
  have hw := h.srcWidth
  refine h.raster_eq (pad := full) (fun x y hx => if_neg (hw ▸ hx)) (fun x y hx => if_neg hx)
    fun x y hx hy => ?_
  rw [if_pos (hw ▸ hx), if_pos hx,
    h.srcByte (k := .dither) (bpp := 2) rfl hmem hx hy Nat.zero_lt_two,
    h.srcByte (k := .dither) (bpp := 2) rfl hmem hx hy Nat.one_lt_two]

theorem State.SameRegs.monoBits
    (hmem : ∀ a ∈ s.readSet .pack, readByte s'.mem a = readByte s.mem a) :
    s'.monoBits = s.monoBits := by
  refine h.raster_eq (pad := false) (fun x y hx => by simp [h.srcWidth, hx])
    (fun x y hx => by simp [hx]) fun x y hx hy => ?_
  rw [h.srcWidth, h.srcByte (k := .pack) (bpp := 1) rfl hmem hx hy Nat.zero_lt_one]

/-- The output is a function of the registers, the LUT and the bytes of the read set
(40_commands.md R296). -/
theorem State.SameRegs.jobOutput {k : JobKind}
    (hmem : ∀ a ∈ s.readSet k, readByte s'.mem a = readByte s.mem a) :
    s'.jobOutput k = s.jobOutput k := by
  cases k with
  | run =>
    simp only [State.jobOutput, h.prepare (h.lumaField (k := .run) rfl hmem), h.ditherCfg,
      h.rasterOutput]
  | prep => simp only [State.jobOutput, h.prepare (h.lumaField (k := .prep) rfl hmem)]
  | dither => simp only [State.jobOutput, h.sampleField hmem, h.ditherCfg, h.rasterOutput]
  | pack => simp only [State.jobOutput, h.monoBits hmem, h.rasterOutput]

end

/-! ### A field written to memory and read back -/

/-- The machine set up to dither a field of `w` by `h` samples that stands at `T`, with its output
to `dst` (40_commands.md R295). -/
def State.ditherFrom (u : State) (T dst : Word) (w h : Nat) : State := { u with
  srcAddr := T, srcStride := BitVec.ofNat 32 (2 * w), dstAddr := dst
  geom := BitVec.ofNat 16 h ++ BitVec.ofNat 16 w }

section
variable {u : State} {T dst : Word} {w h : Nat}

theorem State.srcWidth_ditherFrom (hw : w < 65536) : (u.ditherFrom T dst w h).srcWidth = w := by
  rw [State.srcWidth_eq, State.ditherFrom, toNat_append_eq, BitVec.toNat_ofNat, BitVec.toNat_ofNat]
  omega

theorem State.height_ditherFrom (hh : h < 65536) : (u.ditherFrom T dst w h).height = h := by
  rw [State.height_eq, State.ditherFrom, toNat_append_eq, BitVec.toNat_ofNat, BitVec.toNat_ofNat]
  omega

/-- A width that needs no padding is its own padded width. -/
theorem State.paddedWidth_ditherFrom (hw : w < 65536) (h8 : w % 8 = 0) :
    (u.ditherFrom T dst w h).paddedWidth = w := by
  rw [State.paddedWidth, State.srcWidth_ditherFrom hw, roundup8]
  omega

/-- The source bytes of the set-up machine are the output bytes, in order, of a machine that writes
a field to `T` (20_memory.md R162, R167). -/
theorem State.srcByteAddr_ditherFrom {v : State} (hv : v.dstAddr = T) (hw : w < 65536)
    (x y c : Nat) :
    (u.ditherFrom T dst w h).srcByteAddr 2 x y c = v.dstByteAddr (2 * (y * w + x) + c) := by
  have hstride : (BitVec.ofNat 32 (2 * w)).toNat = 2 * w := by
    rw [BitVec.toNat_ofNat]
    omega
  simp only [State.srcByteAddr, State.dstByteAddr, State.ditherFrom, hstride, hv]
  congr 1
  ring

/-- DITHER reads back the field PREP wrote (40_commands.md R295). -/
theorem State.sampleField_ditherFrom {v : State} (hv : v.dstAddr = T) (hw : w < 65536)
    (h8 : w % 8 = 0) (hh : h < 65536) {G : Field} (hG : Shaped w h G)
    (hrange : ∀ x y, x < w → y < h → 0 ≤ sampleAt G x y ∧ sampleAt G x y ≤ 65280)
    (hout : v.HoldsOutput u (fieldBytes G)) : (u.ditherFrom T dst w h).sampleField = G := by
  rw [State.sampleField, State.paddedWidth_ditherFrom hw h8, State.height_ditherFrom hh,
    State.srcWidth_ditherFrom hw]
  refine (raster_congr fun x y hx hy => ?_).trans hG.eq_raster.symm
  obtain ⟨h0, h1⟩ := hrange x y hx hy
  have hsample := hout.sample hG hx hy h0 (h1.trans (by decide))
  rw [if_pos hx, State.srcByte, State.srcByte, State.srcByteAddr_ditherFrom hv hw,
    State.srcByteAddr_ditherFrom hv hw]
  push_cast
  exact (congrArg (min · full) hsample).trans (min_eq_left h1)

end

theorem State.ditherCfg_congr {s u : State} (hc : u.ctrl = s.ctrl)
    (hw : u.paddedWidth = s.paddedWidth) (hh : u.height = s.height) :
    u.ditherCfg = s.ditherCfg := by
  simp only [State.ditherCfg, State.mode, State.threshold, State.invert, hc, hw, hh]

theorem State.rasterOutput_congr {s u : State} (hc : u.ctrl = s.ctrl)
    (hw : u.paddedWidth = s.paddedWidth) (hh : u.height = s.height) (B : Bits) :
    u.rasterOutput B = s.rasterOutput B := by
  have hframe : u.frame = s.frame := congrArg (BitVec.getLsbD · 4) hc
  have hbpl : u.bytesPerLine = s.bytesPerLine := congrArg (· / 8) hw
  simp only [State.rasterOutput, hframe, hbpl, hh]

/-- The padded width of a job that passes the launch checks fits in `GEOM.WIDTH`
(41_preprocess.md R306). -/
theorem State.paddedWidth_lt {s : State} {k : JobKind} (hp : s.plat.wf = true)
    (h : s.launchError k = none) : s.paddedWidth < 65536 := by
  obtain ⟨-, hw, -⟩ := State.geometry_of_launch h
  simp only [Platform.wf, Bool.and_eq_true, decide_eq_true_eq] at hp
  simp only [State.paddedWidth, roundup8]
  omega

/-- DITHER of a field in memory that PREP wrote answers RUN's bytes (40_commands.md R295). -/
theorem State.jobOutput_ditherFrom {s u : State} {T dst : Word} (hs : s.Inv)
    (hw : s.paddedWidth < 65536) (hctrl : u.ctrl = s.ctrl)
    (hout : State.HoldsOutput { s with dstAddr := T } u (fieldBytes s.preparedField)) :
    (u.ditherFrom T dst s.paddedWidth s.height).jobOutput .dither =
      .ok (s.rasterOutput (ditherBits s.ditherCfg s.preparedField)) := by
  have hW : (u.ditherFrom T dst s.paddedWidth s.height).paddedWidth = s.paddedWidth :=
    State.paddedWidth_ditherFrom hw (Nat.mul_mod_right 8 _)
  have hH : (u.ditherFrom T dst s.paddedWidth s.height).height = s.height :=
    State.height_ditherFrom s.height_lt
  have hfield : (u.ditherFrom T dst s.paddedWidth s.height).sampleField = s.preparedField :=
    State.sampleField_ditherFrom (v := { s with dstAddr := T }) rfl hw (Nat.mul_mod_right 8 _)
      s.height_lt s.shaped_preparedField
      (fun x y => State.sampleAt_preparedField_mem le_rfl fun _ _ => hs.lutSample_le) hout
  have hc : (u.ditherFrom T dst s.paddedWidth s.height).ctrl = s.ctrl := hctrl
  rw [State.jobOutput, hfield, State.ditherCfg_congr hc hW hH, State.rasterOutput_congr hc hW hH]

/-! ### Two completions with one output -/

/-- Two completions with the same output at the same place have the same length and bytes. -/
theorem State.CompletesTo.same_output {s s' t t' : State} {k k' : JobKind} {tag tag' : BitVec 8}
    {out : List Byte} (h : s.CompletesTo t k tag out) (h' : s'.CompletesTo t' k' tag' out)
    (hdst : s'.dstAddr = s.dstAddr) : t'.outLen = t.outLen ∧
      ∀ j, j < t.outLen.toNat →
        readByte t'.mem (s.dstByteAddr j) = readByte t.mem (s.dstByteAddr j) := by
  have hlen : t.outLen.toNat = out.length := h.reportsOk.outLen.trans h.length_eq.symm
  have hlen' : t'.outLen.toNat = out.length := h'.reportsOk.outLen.trans h'.length_eq.symm
  refine ⟨BitVec.eq_of_toNat_eq (hlen'.trans hlen.symm), fun j hj => ?_⟩
  have hbyte : out[j]? = some (out[j]'(hlen ▸ hj)) := List.getElem?_eq_getElem _
  have haddr : s.dstByteAddr j = s'.dstByteAddr j := by
    rw [State.dstByteAddr, State.dstByteAddr, hdst]
  rw [h.holdsOutput j _ hbyte, haddr, h'.holdsOutput j _ hbyte]

end Sys2Proof.Machine
end

section
/-! The statements about the commands (40_commands.md R250-R296). -/

namespace Sys2Proof.Machine

/-- Settles O12: by induction on the pending inputs, none of which takes the latch away but the
engine's own turn. -/
theorem jobCompletesAfterPendingInputs : Obligations.JobCompletesAfterPendingInputs := by
  intro s t w hj hreset hrun
  exact exists_completion_of_run rfl hj hreset hrun

/-- Settles O30: each check is one branch of `launchError`, and the word's is the decoder's. -/
theorem launchErrorsInOrder : Obligations.LaunchErrorsInOrder := by
  intro s k tag
  refine ⟨fun w hw => ?_, fun hk hfmt => ?_, fun hfmt hgeom => ?_⟩
  · rw [exec_decode_of_illegal (by omega), tagField_eq_ofNat]
    rfl
  · exact exec_of_launchError (State.launchError_of_format hk (State.infmt_eq_reserved_iff.2 hfmt))
  · rw [← State.infmt_eq_reserved_iff] at hfmt
    rw [← State.srcWidth_eq, ← State.height_eq] at hgeom
    exact exec_of_launchError (State.launchError_of_geometry hfmt hgeom)

/-- Settles O31: the pick is an element of `Bad`, and the admitted bytes of the write set are
distinct. -/
theorem busFaultReportsRefusedByte : Obligations.BusFaultReportsRefusedByte := by
  intro s k tag b hl hbad
  have hmem : b ∈ s.badAddrs k := State.mem_badAddrs.2 hbad
  have hb : s.badAddrs k ≠ [] := List.ne_nil_of_mem hmem
  have hexec := exec_of_bad (tag := tag) hl hb
  have hfault := State.toNat_faultAddr_retireBusFault hb tag
  have hpicked := hfault ▸ State.picked_mem_badAddrs (Config.freePick s.fresh) hb
  refine ⟨_, hexec, s.reportsError_retireBusFault k tag, exec_keepsConfig hexec,
    State.mem_badAddrs.1 hpicked, fun honly => honly _ (State.mem_badAddrs.1 hpicked), hfault, ?_,
    fun a ha => State.readByte_retireBusFault_of_not_mem ha⟩
  rintro _ rfl
  exact ⟨rfl, fun hwf hp j hj =>
    State.readByte_retireBusFault hwf (State.outputLength_lt hp hl).le tag hj⟩

/-- Settles O32: the output is the raster of the dithered prepared field. -/
theorem runCompletes : Obligations.RunCompletes := by
  intro s tag hwf hp hready hover hlut
  obtain ⟨t, hexec, h⟩ := exec_completesTo hwf hp hready hover (State.jobOutput_run hlut) tag
  exact ⟨t, hexec, h.reportsOk, h.keepsConfig,
    State.holdsRaster_of_holdsOutput (shaped_ditherBits s.ditherCfg _) h.holdsOutput, h.frame⟩

/-- Settles O33: the output is the bytes of the prepared field, whose samples fit in 16 bits. -/
theorem prepCompletes : Obligations.PrepCompletes := by
  intro s tag hwf hp hready hover hlut
  obtain ⟨t, hexec, h⟩ := exec_completesTo hwf hp hready hover (State.jobOutput_prep hlut) tag
  refine ⟨t, hexec, h.reportsOk, h.keepsConfig, fun x y hx hy => ?_, h.frame⟩
  obtain ⟨h0, h1⟩ :=
    State.sampleAt_preparedField_mem (by decide) (fun _ _ => State.lutSample_le) hx hy
  exact h.holdsOutput.sample s.shaped_preparedField hx hy h0 h1

/-- Settles O34: the output is the raster of the dithered field in memory. -/
theorem ditherCompletes : Obligations.DitherCompletes := by
  intro s tag hwf hp hready hover
  obtain ⟨t, hexec, h⟩ := exec_completesTo hwf hp hready hover rfl tag
  exact ⟨t, hexec, h.reportsOk, h.keepsConfig,
    State.holdsRaster_of_holdsOutput (shaped_ditherBits s.ditherCfg _) h.holdsOutput,
    fun x y hx hy => sampleAt_raster _ hx hy, h.frame⟩

/-- Settles O35: the output is the raster of the mono image in memory. -/
theorem packCompletes : Obligations.PackCompletes := by
  intro s tag hwf hp hready hover
  obtain ⟨t, hexec, h⟩ := exec_completesTo hwf hp hready hover rfl tag
  have hraster := State.holdsRaster_of_holdsOutput (shaped_raster _ _ _) h.holdsOutput
  exact ⟨t, hexec, h.reportsOk, h.keepsConfig, hraster.congr fun x y => State.bitAt_monoBits,
    h.frame⟩

/-- Settles O40: every completion is a `retireOk` or a `retireError`, and keeps `CTRL`. -/
theorem completionStatus : Obligations.CompletionStatus := by
  intro i s t he
  have hirq : t.irqEn = s.irqEn := congrArg (BitVec.getLsbD · 16) (exec_keepsConfig he).ctrl
  rw [State.irq, hirq]
  rcases exec_next_retires he with ⟨u, n, rfl⟩ | ⟨u, code, info, rfl, hinfo⟩
  · simp
  · have hcode := code.bits_ne_zero
    refine ⟨rfl, rfl, rfl, rfl, ⟨fun _ => hcode, fun _ => rfl⟩, code.toNat_bits_le, fun _ => rfl,
      fun hne => ?_, Bool.and_true _⟩
    have hbus : code ≠ .busFault := fun h => hne (by simp [h, ErrCode.bits])
    simp [hinfo hbus]

/-- Settles O42: DITHER reads back the field that PREP wrote to `T`, the prepared field of RUN, and
so answers RUN's output. -/
theorem runIsPrepThenDither : Obligations.RunIsPrepThenDither := by
  intro s T tag₁ tag₂ tag₃ hinv W forPrep forDither hlut hready hover hready₂ hover₂ hready₃ hover₃
  obtain ⟨r, hr, hrun⟩ := exec_completesTo hinv.memCanonical hinv.platLegal hready hover
    (State.jobOutput_run hlut) tag₁
  have hinv₂ : forPrep.Inv := hinv.withImage _ _ _ _
  obtain ⟨p, hp, hprep⟩ := exec_completesTo hinv₂.memCanonical hinv₂.platLegal hready₂ hover₂
    (State.jobOutput_prep (s := forPrep) hlut) tag₂
  have hinvp : (forDither p).Inv := (exec_keeps_inv hinv₂ hp).withImage _ _ _ _
  have hregs : (forDither s).SameRegs (forDither p) :=
    { ctrl := hprep.keepsConfig.ctrl, geom := rfl, srcAddr := rfl, srcStride := rfl, dstAddr := rfl
      lut := hprep.keepsConfig.lut, plat := hprep.keepsConfig.plat }
  have hwidth := State.paddedWidth_lt hinv.platLegal (State.jobReady_iff.1 hready).1
  have hout : (forDither p).jobOutput .dither =
      .ok (s.rasterOutput (ditherBits s.ditherCfg s.preparedField)) :=
    State.jobOutput_ditherFrom hinv hwidth hprep.keepsConfig.ctrl hprep.holdsOutput
  obtain ⟨d, hd, hdither⟩ := exec_completesTo hinvp.memCanonical hinvp.platLegal
    ((hregs.jobReady _).trans hready₃) ((hregs.overlaps _).trans hover₃) hout tag₃
  obtain ⟨hlen, hbytes⟩ := hrun.same_output hdither rfl
  exact ⟨r, p, d, hr, hp, hd, hlen, hbytes⟩

/-- Settles O43: the launch checks depend on the registers, the output on them, the LUT and the
read set. -/
theorem jobDependsOnReadSetOnly : Obligations.JobDependsOnReadSetOnly := by
  intro s s' k tag hwf hwf' hp hctrl hgeom hsrc hstride hdst hlut hplat hmem hb hover
  have hregs : s.SameRegs s' := ⟨hctrl, hgeom, hsrc, hstride, hdst, hlut, hplat⟩
  cases hl : s.launchError k with
  | some code =>
    have hl' := (hregs.launchError k).trans hl
    exact .inr ⟨_, _, exec_of_launchError hl, exec_of_launchError hl', rfl, rfl, rfl, rfl, rfl, rfl,
      fun j hj => absurd hj (Nat.not_lt_zero j)⟩
  | none =>
    have hready := State.jobReady_iff.2 ⟨hl, hb⟩
    have hready' := (hregs.jobReady k).trans hready
    obtain ⟨hl', hb'⟩ := State.jobReady_iff.1 hready'
    have hjob := hregs.jobOutput hmem
    cases hout : s.jobOutput k with
    | error f =>
      refine .inl ⟨f, ?_, ?_⟩
      · rw [exec_eq_conclude hl hb, hout]
        rfl
      · rw [exec_eq_conclude hl' hb', hjob, hout]
        rfl
    | ok out =>
      obtain ⟨t, hexec, ht⟩ := exec_completesTo hwf hp hready hover hout tag
      obtain ⟨t', hexec', ht'⟩ := exec_completesTo hwf' (hplat ▸ hp) hready'
        ((hregs.overlaps k).trans hover) (hjob.trans hout) tag
      obtain ⟨hlen, hbytes⟩ := ht.same_output ht' hdst
      have hok := ht.reportsOk
      have hok' := ht'.reportsOk
      exact .inr ⟨t, t', hexec, hexec', hlen, hok'.errcode.trans hok.errcode.symm,
        hok'.faultAddr.trans hok.faultAddr.symm, hok'.lastTag.trans hok.lastTag.symm,
        hok'.done.trans hok.done.symm, hok'.err.trans hok.err.symm, hbytes⟩

/-- Settles O16: a busy engine ignores the write. -/
theorem busyCommandIgnored : Obligations.BusyCommandIgnored := by
  intro s w v hj
  rw [hostRegWrite_of_ok (by decide) (by decide)]
  exact congrArg Host.Outcome.next (State.whenIdle_of_busy (update := (·.accept v)) hj)

/-- Settles O17: an idle engine takes the write as `accept`. -/
theorem idleCommandAccepted : Obligations.IdleCommandAccepted := by
  intro s w hj
  exact hostRegWrite_of_idle hj (by decide) (by decide) (update := (·.accept w)) rfl

/-- Settles O28: NOP is `retireOk` of no bytes; a reserved bit makes its word illegal. -/
theorem nopCompletes : Obligations.NopCompletes := by
  intro s tag
  refine ⟨rfl, ?_, fun w hop hrsv => ?_, fun hwign => ⟨_, rfl, ?_⟩⟩
  · simp [encode, toNat_commandWord]
  · exact ⟨_, exec_decode_of_illegal (by omega) s, rfl⟩
  · apply BitVec.eq_of_toNat_eq
    rw [State.toNat_statusWord]
    simp [hwign]

/-- Settles O29: an illegal word is accepted as any other, and its completion is `retireError`. -/
theorem illegalCommandCompletes : Obligations.IllegalCommandCompletes := by
  intro s
  refine ⟨fun _ _ _ _ => rfl, fun w hw => ⟨idleCommandAccepted s w, ?_⟩, fun hwign => ?_⟩
  · rw [exec_decode_of_illegal hw, tagField_eq_ofNat]
    rfl
  · refine ⟨_, exec_decode_of_illegal (by decide) s, BitVec.eq_of_toNat_eq ?_⟩
    rw [State.toNat_statusWord]
    simp [hwign, ErrCode.bits, tagField_eq_ofNat]

end Sys2Proof.Machine
end

section
/-! SUPPORT. The pre-processing pipeline: source formats, the padded width, the lookups that
fault, and the neighbours of the unsharp mask (41_preprocess.md R300-R322). -/

namespace Sys2Proof.Machine

/-! ### Luminance -/

theorem State.toNat_infmtBits (s : State) :
    (s.ctrl.extractLsb' 6 2).toNat = s.ctrl.toNat / 64 % 4 := by
  rw [BitVec.extractLsb'_toNat, Nat.shiftRight_eq_div_pow]

theorem State.luma_of_y8 {s : State} (h : s.ctrl.toNat / 64 % 4 = 0) (x y : Nat) :
    s.luma x y = s.srcByte 1 x y 0 := by
  have hfmt : s.infmt = .y8 := by simp only [State.infmt, s.toNat_infmtBits, h]
  simp only [State.luma, hfmt, InFmt.bytesPerPixel]

theorem State.luma_of_rgb888 {s : State} (h : s.ctrl.toNat / 64 % 4 = 1) (x y : Nat) :
    s.luma x y = lumaRGB (s.srcByte 3 x y 0) (s.srcByte 3 x y 1) (s.srcByte 3 x y 2) := by
  have hfmt : s.infmt = .rgb888 := by simp only [State.infmt, s.toNat_infmtBits, h]
  simp only [State.luma, hfmt, InFmt.bytesPerPixel]

/-- The fourth byte of the pixel, alpha, is not looked at (20_memory.md R160). -/
theorem State.luma_of_rgba8888 {s : State} (h : s.ctrl.toNat / 64 % 4 = 2) (x y : Nat) :
    s.luma x y = lumaRGB (s.srcByte 4 x y 0) (s.srcByte 4 x y 1) (s.srcByte 4 x y 2) := by
  have hfmt : s.infmt = .rgba8888 := by simp only [State.infmt, s.toNat_infmtBits, h]
  simp only [State.luma, hfmt, InFmt.bytesPerPixel]

/-- The division of `lumaRGB` rounds half up: it is the quotient of the sum plus 500
(41_preprocess.md R303). -/
theorem lumaRGB_bounds (r g b : Nat) :
    1000 * lumaRGB r g b ≤ 299 * r + 587 * g + 114 * b + 500 ∧
      299 * r + 587 * g + 114 * b + 500 < 1000 * lumaRGB r g b + 1000 := by
  unfold lumaRGB
  omega

/-- The weights add up to 1000, so the luminance of a gray pixel is exact. -/
theorem lumaRGB_gray (v : Nat) : lumaRGB v v v = v := by
  unfold lumaRGB
  omega

/-! ### The padded width -/

theorem roundup8_mod_eight (n : Nat) : roundup8 n % 8 = 0 := Nat.mul_mod_right 8 _

theorem le_roundup8 (n : Nat) : n ≤ roundup8 n := by
  unfold roundup8
  omega

/-- A multiple of 8 that bounds a number bounds its round-up. -/
theorem roundup8_le {n m : Nat} (hm : m % 8 = 0) (h : n ≤ m) : roundup8 n ≤ m := by
  unfold roundup8
  omega

/-! ### The lookups of `prepare` -/

/-- `prepare` stops at a pixel whose LUT entry was not written (41_preprocess.md R311). -/
theorem State.prepare_of_not_lookupsWritten {s : State} (h : ¬ s.lookupsWritten) :
    ∃ x y, x < s.paddedWidth ∧ y < s.height ∧ s.lutSample (s.lookedUp x y) = none ∧
      s.prepare = .error (.lutUnwritten (s.lookedUp x y)) := by
  obtain ⟨v, hv⟩ := Option.ne_none_iff_exists'.1 (mt State.firstUnwritten_eq_none_iff.1 h)
  have hmem : v ∈ (raster s.paddedWidth s.height s.lookedUp).flatten :=
    List.mem_of_find?_eq_some hv
  have hnone := List.find?_some hv
  obtain ⟨y, hy, x, hx, rfl⟩ := mem_flatten_raster.1 hmem
  refine ⟨x, y, hx, hy, Option.isNone_iff_eq_none.1 hnone, ?_⟩
  simp only [State.prepare, hv]

/-- The fault of `prepare` is the output of the two jobs that call it (40_commands.md R270, R275). -/
theorem State.jobOutput_of_prepare_error {s : State} {k : JobKind} {f : Fault}
    (hk : k = .run ∨ k = .prep) (h : s.prepare = .error f) : s.jobOutput k = .error f := by
  rcases hk with rfl | rfl
  · rw [State.jobOutput, h]
    rfl
  · rw [State.jobOutput, h]
    rfl

/-! ### Samples in range -/

/-- A prepared field in coordinates: a rectangle of samples in 0..`FULL` (42_dither.md R350). -/
theorem preparedShape_iff {w h : Nat} {G : Field} :
    preparedShape w h G ↔ Shaped w h G ∧
      ∀ x y, x < w → y < h → 0 ≤ sampleAt G x y ∧ sampleAt G x y ≤ 65280 := by
  constructor
  · rintro ⟨hlen, hrows, hrange⟩
    have hG : Shaped w h G := ⟨hlen, hrows⟩
    exact ⟨hG, fun x y hx hy =>
      hrange _ (hG.getD_mem hy) _ (List.mem_of_getElem? (hG.getElem?_getD hx hy 0))⟩
  · rintro ⟨hG, hrange⟩
    refine ⟨hG.1, hG.2, fun row hrow v hv => ?_⟩
    have hmem : v ∈ (raster w h (sampleAt G)).flatten :=
      hG.eq_raster ▸ List.mem_flatten.2 ⟨row, hrow, hv⟩
    obtain ⟨y, hy, x, hx, rfl⟩ := mem_flatten_raster.1 hmem
    exact hrange x y hx hy

/-! ### The neighbours of a pixel -/

theorem mem_window {k n i : Nat} (hk : k < n) :
    i ∈ window k n ↔ i < n ∧ k ≤ i + 1 ∧ i ≤ k + 1 := by
  unfold window
  split_ifs
  all_goals
    simp only [List.mem_append, List.mem_singleton, List.not_mem_nil, false_or, or_false]
    omega

theorem pairwise_lt_window (k n : Nat) : (window k n).Pairwise (· < ·) := by
  unfold window
  split_ifs with hk
  all_goals simp [Nat.pos_iff_ne_zero, hk]

theorem length_window_le (k n : Nat) : (window k n).length ≤ 3 := by
  unfold window
  split_ifs
  all_goals simp

/-- The window is the part of `0..n-1` within 1 of `k`, in order (41_preprocess.md R320). -/
theorem window_eq_filter {k n : Nat} (hk : k < n) :
    window k n = (List.range n).filter fun i => k ≤ i + 1 ∧ i ≤ k + 1 := by
  refine (pairwise_lt_window k n).eq_of_mem_iff (List.pairwise_lt_range.filter _) fun i => ?_
  simp only [mem_window hk, List.mem_filter, List.mem_range, decide_eq_true_eq]

/-- The samples around `(x, y)` inside a `w` by `h` image, the pixel itself among them
(41_preprocess.md R320). -/
def neighbours (w h : Nat) (A : Field) (x y : Nat) : List Int :=
  (window y h).flatMap fun j => (window x w).map fun i => sampleAt A i j

theorem sharpenAt_eq_neighbours (w h : Nat) (A : Field) (x y : Nat) :
    sharpenAt w h A x y =
      clamp (fdiv (3 * (neighbours w h A x y).length * sampleAt A x y - (neighbours w h A x y).sum +
        (neighbours w h A x y).length) (2 * (neighbours w h A x y).length)) 0 full := rfl

theorem mem_neighbours {w h x y : Nat} {A : Field} (hx : x < w) (hy : y < h) {v : Int} :
    v ∈ neighbours w h A x y ↔ ∃ j, (j < h ∧ y ≤ j + 1 ∧ j ≤ y + 1) ∧
      ∃ i, (i < w ∧ x ≤ i + 1 ∧ i ≤ x + 1) ∧ sampleAt A i j = v := by
  simp only [neighbours, List.mem_flatMap, List.mem_map, mem_window hx, mem_window hy]

theorem sampleAt_mem_neighbours {w h x y : Nat} (A : Field) (hx : x < w) (hy : y < h) :
    sampleAt A x y ∈ neighbours w h A x y :=
  (mem_neighbours hx hy).2 ⟨y, ⟨hy, by omega, by omega⟩, x, ⟨hx, by omega, by omega⟩, rfl⟩

theorem length_neighbours_le (w h : Nat) (A : Field) (x y : Nat) :
    (neighbours w h A x y).length ≤ 9 := by
  have hlen : (neighbours w h A x y).length = (window y h).length * (window x w).length := by
    simp [neighbours, List.length_flatMap]
  calc (neighbours w h A x y).length = (window y h).length * (window x w).length := hlen
    _ ≤ 3 * 3 := Nat.mul_le_mul (length_window_le y h) (length_window_le x w)

/-- Scanning a list with a guard is scanning the items that pass it. -/
theorem flatMap_ite_nil {α β : Type} (p : α → Prop) [DecidablePred p] (f : α → List β) (l : List α) :
    (l.flatMap fun a => if p a then f a else []) = (l.filter fun a => p a).flatMap f := by
  induction l with
  | nil => rfl
  | cons a l ih => by_cases h : p a <;> simp [h, ih]

/-- The neighbours are the samples of the whole image that lie within 1 of the pixel in both
coordinates, row-major (41_preprocess.md R320). -/
theorem neighbours_eq_scan {w h x y : Nat} (A : Field) (hx : x < w) (hy : y < h) :
    neighbours w h A x y = (List.range h).flatMap fun j => (List.range w).flatMap fun i =>
      if x ≤ i + 1 ∧ i ≤ x + 1 ∧ y ≤ j + 1 ∧ j ≤ y + 1 then [sampleAt A i j] else [] := by
  have hrow : ∀ j, ((List.range w).flatMap fun i =>
      if x ≤ i + 1 ∧ i ≤ x + 1 ∧ y ≤ j + 1 ∧ j ≤ y + 1 then [sampleAt A i j] else []) =
      if y ≤ j + 1 ∧ j ≤ y + 1 then (window x w).map fun i => sampleAt A i j else [] := by
    intro j
    by_cases hj : y ≤ j + 1 ∧ j ≤ y + 1
    · simp only [hj, and_true, if_true]
      rw [flatMap_ite_nil, ← window_eq_filter hx, List.map_eq_flatMap]
    · simp [hj]
  simp only [hrow]
  rw [flatMap_ite_nil, ← window_eq_filter hy, neighbours]

/-! ### The intermediate of the unsharp mask -/

/-- A list of values in `0..F` sums to at least any of its items `a`, and to at most `a` and `F` for
every other item. -/
theorem sum_bounds_of_mem {l : List Int} {a F : Int} (ha : a ∈ l)
    (hl : ∀ v ∈ l, 0 ≤ v ∧ v ≤ F) : a ≤ l.sum ∧ l.sum ≤ a + (l.length - 1) * F := by
  refine ⟨List.single_le_sum (fun v hv => (hl v hv).1) a ha, ?_⟩
  have hrest := List.sum_le_card_nsmul (l.erase a) F fun v hv => (hl v (List.mem_of_mem_erase hv)).2
  have hlen : ((l.erase a).length : Int) = l.length - 1 := by
    have := List.length_pos_of_mem ha
    rw [List.length_erase_of_mem ha]
    omega
  rw [nsmul_eq_mul, hlen] at hrest
  calc l.sum = a + (l.erase a).sum := (List.sum_erase ha).symm
    _ ≤ a + (l.length - 1) * F := by omega

/-- The extremes of `3*n*a - S + n`: the pixel at 0 with all others at `FULL`, and the converse
(41_preprocess.md R322). -/
theorem sharpenIntermediate_bounds {n a S : Int} (hn : 1 ≤ n) (hn9 : n ≤ 9)
    (ha : 0 ≤ a ∧ a ≤ 65280) (hS : a ≤ S ∧ S ≤ a + (n - 1) * 65280) :
    -8 * 65280 + 9 ≤ 3 * n * a - S + n ∧ 3 * n * a - S + n ≤ 26 * 65280 + 9 := by
  have hlow : 0 ≤ (3 * n - 1) * a := mul_nonneg (by omega) ha.1
  have hhigh : (3 * n - 1) * a ≤ (3 * n - 1) * 65280 := mul_le_mul_of_nonneg_left ha.2 (by omega)
  have hprod : (3 * n - 1) * a = 3 * n * a - a := by ring
  omega

end Sys2Proof.Machine
end

section
/-! The statements about pre-processing (41_preprocess.md R300-R322). -/

namespace Sys2Proof.Machine

/-- Settles O37: `prepare` stops, and its fault is the job's outcome. -/
theorem unwrittenLookupFaults : Obligations.UnwrittenLookupFaults := by
  intro s k tag hk hready hlut
  obtain ⟨hl, hb⟩ := State.jobReady_iff.1 hready
  obtain ⟨x, y, hx, hy, hnone, hprep⟩ := State.prepare_of_not_lookupsWritten hlut
  refine ⟨x, y, hx, hy, hnone, ?_⟩
  rw [exec_eq_conclude hl hb, State.jobOutput_of_prepare_error hk hprep, State.conclude]

/-- Settles O46: a `prepare` that answers has all its lookups written, and the invariant bounds every
written LUT entry. -/
theorem preparedFieldInRange : Obligations.PreparedFieldInRange := by
  intro s G hinv hG
  have hlut := State.firstUnwritten_eq_none_iff.1 (State.prepare_ok hG).1
  have hok : s.prepare = .ok s.preparedField := State.prepare_of_lookupsWritten hlut
  obtain rfl : s.preparedField = G := Except.ok.inj (hok.symm.trans hG)
  refine ⟨rfl, preparedShape_iff.2 ⟨s.shaped_preparedField, fun x y hx hy => ?_⟩⟩
  exact State.sampleAt_preparedField_mem le_rfl (fun _ _ => hinv.lutSample_le) hx hy

/-- Settles O47: the window is the scan of the whole image for the pixel's neighbours. -/
theorem sharpenPixel : Obligations.SharpenPixel := by
  intro w h x y A hx hy near n value
  have hnear : neighbours w h A x y = near := neighbours_eq_scan A hx hy
  rw [sharpenField, sampleAt_raster _ hx hy, sharpenAt_eq_neighbours, hnear]
  rfl

/-- Settles O48: at most 9 neighbours, each in 0..`FULL`, the pixel itself among them. -/
theorem sharpenIntermediateRange : Obligations.SharpenIntermediateRange := by
  intro w h x y A _ hx hy hA near n m
  have hrange := (preparedShape_iff.1 hA).2
  have hmem : sampleAt A x y ∈ near := sampleAt_mem_neighbours A hx hy
  have hnear : ∀ v ∈ near, 0 ≤ v ∧ v ≤ 65280 := by
    intro v hv
    obtain ⟨j, ⟨hj, -⟩, i, ⟨hi, -⟩, rfl⟩ := (mem_neighbours hx hy).1 hv
    exact hrange i j hi hj
  have hpos : 1 ≤ n := Int.ofNat_le.2 (List.length_pos_of_mem hmem)
  have hle : n ≤ 9 := Int.ofNat_le.2 (length_neighbours_le w h A x y)
  have hbounds : -8 * 65280 + 9 ≤ m ∧ m ≤ 26 * 65280 + 9 :=
    sharpenIntermediate_bounds hpos hle (hrange x y hx hy) (sum_bounds_of_mem hmem hnear)
  exact ⟨hbounds, by omega⟩

/-- Settles O44: the quotient is the sum rounded half up; the formats are the cases of `luma`. -/
theorem lumaRoundsWeightedSum : Obligations.LumaRoundsWeightedSum := by
  refine ⟨fun r g b hr hg hb => ?_, lumaRGB_gray, rfl, rfl, rfl, rfl, rfl, rfl, rfl, fun s x y =>
    ⟨fun h => State.luma_of_y8 h x y, fun h => State.luma_of_rgb888 h x y,
      fun h => State.luma_of_rgba8888 h x y⟩⟩
  obtain ⟨hle, hlt⟩ := lumaRGB_bounds r g b
  exact ⟨by omega, hle, hlt⟩

/-- Settles O45: `MAX_DOTS` is a multiple of 8, so it bounds the round-up of what it bounds. -/
theorem paddedWidthWithinDevice : Obligations.PaddedWidthWithinDevice := by
  intro s hp hw
  simp only [Platform.wf, Bool.and_eq_true, decide_eq_true_eq] at hp
  obtain ⟨⟨hdots, -⟩, -⟩ := hp
  exact ⟨roundup8_mod_eight _, le_roundup8 _, roundup8_le hdots hw⟩

end Sys2Proof.Machine
end

section
/-! SUPPORT. What one body of the scan adds to the working field (42_dither.md R353, R355, R360). -/

namespace Sys2Proof.Machine

/-! ### One contribution -/

/-- What a share of pixel `(x, y)` adds at the cell `(x', y')` of the field (42_dither.md R355, R360). -/
def shareGain (x y : Nat) (share : Int × Nat × Int) (x' y' : Nat) : Int :=
  if (x' : Int) = x + share.1 ∧ y' = y + share.2.1 then share.2.2 else 0

/-- What a share of pixel `(x, y)` adds to a `w` by `h` field in all: nothing when its target lies
outside (42_dither.md R355, R360). -/
def shareKept (w h x y : Nat) (share : Int × Nat × Int) : Int :=
  if 0 ≤ (x : Int) + share.1 ∧ (x : Int) + share.1 < w ∧ y + share.2.1 < h then share.2.2 else 0

theorem shareKept_eq_ite {w h x y : Nat} {share : Int × Nat × Int} {inside : Prop}
    [Decidable inside]
    (hin : (0 ≤ (x : Int) + share.1 ∧ (x : Int) + share.1 < w ∧ y + share.2.1 < h) ↔ inside) :
    shareKept w h x y share = if inside then share.2.2 else 0 := if_congr hin rfl rfl

/-- A share goes to its one target inside the field, or nowhere. -/
theorem diffuseOne_cases (w h x y : Nat) (F : Field) (share : Int × Nat × Int) :
    (∃ tx ty : Nat, (tx : Int) = x + share.1 ∧ ty = y + share.2.1 ∧ tx < w ∧ ty < h ∧
      diffuseOne w h x y F share = addSample F tx ty share.2.2) ∨
    (¬ (0 ≤ (x : Int) + share.1 ∧ (x : Int) + share.1 < w ∧ y + share.2.1 < h) ∧
      diffuseOne w h x y F share = F) := by
  by_cases hin : 0 ≤ (x : Int) + share.1 ∧ (x : Int) + share.1 < w ∧ y + share.2.1 < h
  · exact .inl ⟨_, _, Int.toNat_of_nonneg hin.1, rfl, by omega, hin.2.2, if_pos hin⟩
  · exact .inr ⟨hin, if_neg hin⟩

theorem sampleAt_diffuseOne {w h x y x' y' : Nat} {F : Field} (hF : Shaped w h F) (hx' : x' < w)
    (hy' : y' < h) (share : Int × Nat × Int) :
    sampleAt (diffuseOne w h x y F share) x' y' = sampleAt F x' y' + shareGain x y share x' y' := by
  unfold shareGain
  rcases diffuseOne_cases w h x y F share with ⟨tx, ty, htx, hty, hxw, hyh, heq⟩ | ⟨hout, heq⟩
  · by_cases htarget : x' = tx ∧ y' = ty
    · obtain ⟨rfl, rfl⟩ := htarget
      rw [heq, sampleAt_addSample_self hF hxw hyh, if_pos ⟨htx, hty⟩]
    · rw [heq, sampleAt_addSample_of_ne (by omega), if_neg (by omega), add_zero]
  · rw [heq, if_neg (by omega), add_zero]

/-- A cell that is not the target keeps its value, in a field of any shape. -/
theorem sampleAt_diffuseOne_of_ne {w h x y x' y' : Nat} {F : Field} {share : Int × Nat × Int}
    (hne : ¬ ((x' : Int) = x + share.1 ∧ y' = y + share.2.1)) :
    sampleAt (diffuseOne w h x y F share) x' y' = sampleAt F x' y' := by
  rcases diffuseOne_cases w h x y F share with ⟨tx, ty, htx, hty, -, -, heq⟩ | ⟨-, heq⟩
  · rw [heq, sampleAt_addSample_of_ne (by omega)]
  · rw [heq]

/-! ### The sum of a field -/

/-- Modifying one item of a list by a function that raises its value by `d` raises the total by `d`. -/
theorem sum_map_modify {α : Type} {f : α → α} {g : α → Int} {d : Int} {l : List α} {i : Nat}
    (hi : i < l.length) (hf : ∀ a ∈ l, g (f a) = g a + d) :
    ((l.modify i f).map g).sum = (l.map g).sum + d := by
  induction l generalizing i with
  | nil => simp at hi
  | cons a l ih =>
    simp only [List.mem_cons, forall_eq_or_imp] at hf
    obtain ⟨ha, hl⟩ := hf
    cases i with
    | zero => simp only [List.modify_zero_cons, List.map_cons, List.sum_cons, ha]; omega
    | succ i =>
      have := ih (Nat.lt_of_succ_lt_succ hi) hl
      simp only [List.modify_succ_cons, List.map_cons, List.sum_cons, this]; omega

theorem fieldTotal_addSample {w h x y : Nat} {F : Field} (hF : Shaped w h F) (hx : x < w)
    (hy : y < h) (d : Int) : fieldTotal (addSample F x y d) = fieldTotal F + d := by
  obtain ⟨hlen, hrows⟩ := hF
  refine sum_map_modify (hlen ▸ hy) fun row hrow => ?_
  have hrow' : x < row.length := by rwa [hrows row hrow]
  simpa using sum_map_modify (f := fun v => v + d) (g := id) hrow' fun _ _ => rfl

theorem fieldTotal_diffuseOne {w h x y : Nat} {F : Field} (hF : Shaped w h F)
    (share : Int × Nat × Int) :
    fieldTotal (diffuseOne w h x y F share) = fieldTotal F + shareKept w h x y share := by
  unfold shareKept
  rcases diffuseOne_cases w h x y F share with ⟨tx, ty, htx, hty, hxw, hyh, heq⟩ | ⟨hout, heq⟩
  · rw [heq, fieldTotal_addSample hF hxw hyh, if_pos (by omega)]
  · rw [heq, if_neg hout, add_zero]

/-! ### All contributions of one pixel -/

theorem sampleAt_diffuse {w h x y x' y' : Nat} {F : Field} (hF : Shaped w h F) (hx' : x' < w)
    (hy' : y' < h) (shares : List (Int × Nat × Int)) :
    sampleAt (diffuse w h x y F shares) x' y' =
      sampleAt F x' y' + (shares.map fun share => shareGain x y share x' y').sum := by
  induction shares generalizing F with
  | nil => simp [diffuse]
  | cons share shares ih =>
    calc sampleAt (diffuse w h x y (diffuseOne w h x y F share) shares) x' y'
        = sampleAt (diffuseOne w h x y F share) x' y' +
            (shares.map fun share => shareGain x y share x' y').sum := ih (shaped_diffuseOne hF)
      _ = _ := by
        rw [sampleAt_diffuseOne hF hx' hy', List.map_cons, List.sum_cons, add_assoc]

theorem sampleAt_diffuse_of_ne {w h x y x' y' : Nat} {F : Field} {shares : List (Int × Nat × Int)}
    (hne : ∀ share ∈ shares, ¬ ((x' : Int) = x + share.1 ∧ y' = y + share.2.1)) :
    sampleAt (diffuse w h x y F shares) x' y' = sampleAt F x' y' := by
  induction shares generalizing F with
  | nil => rfl
  | cons share shares ih =>
    simp only [List.mem_cons, forall_eq_or_imp] at hne
    obtain ⟨hshare, hshares⟩ := hne
    exact (ih hshares).trans (sampleAt_diffuseOne_of_ne hshare)

theorem fieldTotal_diffuse {w h x y : Nat} {F : Field} (hF : Shaped w h F)
    (shares : List (Int × Nat × Int)) :
    fieldTotal (diffuse w h x y F shares) =
      fieldTotal F + (shares.map (shareKept w h x y)).sum := by
  induction shares generalizing F with
  | nil => simp [diffuse]
  | cons share shares ih =>
    calc fieldTotal (diffuse w h x y (diffuseOne w h x y F share) shares)
        = fieldTotal (diffuseOne w h x y F share) + (shares.map (shareKept w h x y)).sum :=
          ih (shaped_diffuseOne hF)
      _ = _ := by rw [fieldTotal_diffuseOne hF, List.map_cons, List.sum_cons, add_assoc]

/-- A cell that is no share's target gains nothing. -/
theorem sum_shareGain_of_ne {x y x' y' : Nat} {shares : List (Int × Nat × Int)}
    (hne : ∀ share ∈ shares, ¬ ((x' : Int) = x + share.1 ∧ y' = y + share.2.1)) :
    (shares.map fun share => shareGain x y share x' y').sum = 0 :=
  List.sum_eq_zero fun _ hgain => by
    obtain ⟨share, hshare, rfl⟩ := List.mem_map.1 hgain
    exact if_neg (hne share hshare)

/-- A cell that is the target of one share, and of no other, gains that share. -/
theorem sum_shareGain_of_target {x y x' y' : Nat} {shares : List (Int × Nat × Int)}
    {share : Int × Nat × Int}
    (hdistinct : shares.Pairwise fun s t => ¬ (s.1 = t.1 ∧ s.2.1 = t.2.1)) (hmem : share ∈ shares)
    (htarget : (x' : Int) = x + share.1 ∧ y' = y + share.2.1) :
    (shares.map fun share => shareGain x y share x' y').sum = share.2.2 := by
  induction shares with
  | nil => simp at hmem
  | cons s shares ih =>
    obtain ⟨hs, hshares⟩ := List.pairwise_cons.1 hdistinct
    rw [List.map_cons, List.sum_cons]
    rcases List.mem_cons.1 hmem with rfl | hmem
    · have hrest : (shares.map fun share => shareGain x y share x' y').sum = 0 :=
        sum_shareGain_of_ne fun t ht htt => hs t ht (by omega)
      rw [hrest, add_zero, shareGain, if_pos htarget]
    · have hs' := hs _ hmem
      rw [ih hshares hmem, shareGain, if_neg (by omega), zero_add]

/-! ### The body of each mode -/

/-- `tdiv` by cases of the sign (00_scope.md R21). -/
theorem tdiv_eq_ite (a b : Int) : Int.tdiv a b = if 0 ≤ a then a / b else -(-a / b) := by
  split
  · exact Int.tdiv_eq_ediv_of_nonneg ‹_›
  · rw [← Int.neg_neg a, Int.neg_tdiv, Int.tdiv_eq_ediv_of_nonneg (by omega), Int.neg_neg]

theorem ditherBody_fst (cfg : DitherCfg) (x y : Nat) (F : Field) :
    (ditherBody cfg x y F).1 = diffuse cfg.w cfg.h x y F (spread cfg (sampleAt F x y)) := rfl

theorem ditherBody_snd (cfg : DitherCfg) (x y : Nat) (F : Field) :
    (ditherBody cfg x y F).2 = (decision cfg x y (sampleAt F x y)).xor cfg.invert := rfl

/-- The shares by the mode and the error alone (42_dither.md R352, R368). -/
def errorShares : Mode → Int → List (Int × Nat × Int)
  | .floydSteinberg, e => floydShares e
  | .atkinson, e => atkinsonShares e
  | .ordered8x8, _ => []
  | .flat, _ => []

theorem mem_floydShares {e : Int} {share : Int × Nat × Int} :
    share ∈ floydShares e ↔ share = (1, 0, Int.tdiv (7 * e) 16) ∨ share = (-1, 1, Int.tdiv (3 * e) 16) ∨
      share = (0, 1, Int.tdiv (5 * e) 16) ∨ share = (1, 1, Int.tdiv e 16) := by
  simp only [floydShares, List.mem_cons, List.not_mem_nil, or_false, one_mul, tdiv]

theorem mem_atkinsonShares {e : Int} {share : Int × Nat × Int} :
    share ∈ atkinsonShares e ↔ share = (1, 0, Int.tdiv e 8) ∨ share = (2, 0, Int.tdiv e 8) ∨
      share = (-1, 1, Int.tdiv e 8) ∨ share = (0, 1, Int.tdiv e 8) ∨ share = (1, 1, Int.tdiv e 8) ∨
      share = (0, 2, Int.tdiv e 8) := by
  simp only [atkinsonShares, List.mem_cons, List.not_mem_nil, or_false, tdiv]

theorem spread_eq_errorShares (cfg : DitherCfg) (v : Int) :
    spread cfg v = errorShares cfg.mode (quantError cfg.threshold v) := by
  unfold spread
  cases cfg.mode <;> rfl

theorem quantError_eq (threshold : Nat) (v : Int) :
    quantError threshold v = if v < threshold * 256 then v else v - 65280 :=
  if_congr decide_eq_true_iff rfl rfl

/-- Both error-diffusion modes decide by the quantiser (42_dither.md R353). -/
theorem decision_of_diffusing {cfg : DitherCfg}
    (hmode : cfg.mode = .floydSteinberg ∨ cfg.mode = .atkinson) (x y : Nat) (v : Int) :
    decision cfg x y v = decide (v < cfg.threshold * 256) := by
  unfold decision
  rcases hmode with hmode | hmode
  · rw [hmode]; rfl
  · rw [hmode]; rfl

theorem decision_of_ordered {cfg : DitherCfg} (hmode : cfg.mode = .ordered8x8) (x y : Nat) (v : Int) :
    decision cfg x y v = decide (clamp (v + (128 - (cfg.threshold : Int)) * 256) 0 65280 <
      (4 * (bayer (y % 8) (x % 8) : Int) + 2) * 256) := by
  simp [decision, hmode, orderedBlack, levelUnits, full]

theorem decision_of_flat {cfg : DitherCfg} (hmode : cfg.mode = .flat) (x y : Nat) (v : Int) :
    decision cfg x y v = decide (v < cfg.threshold * 256) := by
  unfold decision
  rw [hmode]
  rfl

/-- Every share goes to the right in its own row, or to a row below (42_dither.md R351). -/
theorem later_of_mem_errorShares {m : Mode} {e : Int} {share : Int × Nat × Int}
    (h : share ∈ errorShares m e) : (share.2.1 = 0 ∧ 0 < share.1) ∨ 0 < share.2.1 := by
  cases m with
  | floydSteinberg => rcases mem_floydShares.1 h with rfl | rfl | rfl | rfl <;> simp
  | atkinson => rcases mem_atkinsonShares.1 h with rfl | rfl | rfl | rfl | rfl | rfl <;> simp
  | ordered8x8 => simp [errorShares] at h
  | flat => simp [errorShares] at h

/-- No two shares of a pixel have the same target. -/
theorem pairwise_targets_errorShares (m : Mode) (e : Int) :
    (errorShares m e).Pairwise fun s t => ¬ (s.1 = t.1 ∧ s.2.1 = t.2.1) := by
  cases m with
  | floydSteinberg => simp [errorShares, floydShares]
  | atkinson => simp [errorShares, atkinsonShares]
  | ordered8x8 => exact .nil
  | flat => exact .nil

theorem sampleAt_ditherBody_of_not_later (cfg : DitherCfg) {x y x' y' : Nat} (F : Field)
    (h : y' < y ∨ (y' = y ∧ x' ≤ x)) :
    sampleAt (ditherBody cfg x y F).1 x' y' = sampleAt F x' y' := by
  rw [ditherBody_fst, spread_eq_errorShares]
  refine sampleAt_diffuse_of_ne fun share hshare => ?_
  have := later_of_mem_errorShares hshare
  omega

theorem ditherBody_fst_of_floyd {cfg : DitherCfg} (hmode : cfg.mode = .floydSteinberg) (x y : Nat)
    (F : Field) : (ditherBody cfg x y F).1 =
      diffuse cfg.w cfg.h x y F (floydShares (quantError cfg.threshold (sampleAt F x y))) := by
  rw [ditherBody_fst, spread_eq_errorShares, hmode]
  rfl

theorem ditherBody_fst_of_atkinson {cfg : DitherCfg} (hmode : cfg.mode = .atkinson) (x y : Nat)
    (F : Field) : (ditherBody cfg x y F).1 =
      diffuse cfg.w cfg.h x y F (atkinsonShares (quantError cfg.threshold (sampleAt F x y))) := by
  rw [ditherBody_fst, spread_eq_errorShares, hmode]
  rfl

/-- Ordered8x8 and None write nothing (42_dither.md R364, R367). -/
theorem ditherBody_fst_of_pointwise {cfg : DitherCfg}
    (hmode : cfg.mode = .ordered8x8 ∨ cfg.mode = .flat) (x y : Nat) (F : Field) :
    (ditherBody cfg x y F).1 = F := by
  rw [ditherBody_fst, spread_eq_errorShares]
  rcases hmode with hmode | hmode
  · rw [hmode]; rfl
  · rw [hmode]; rfl

end Sys2Proof.Machine
end

section
/-! SUPPORT. The scan in pixel order: every row, and the whole scan, in terms of the field that the pixels
before have left (42_dither.md R351). -/

namespace Sys2Proof.Machine

/-- The bit the scan gives pixel `(x, y)`. -/
def scanBit (cfg : DitherCfg) (G : Field) (x y : Nat) : Bool :=
  (ditherBody cfg x y (fieldBefore cfg G (y * cfg.w + x))).2

/-- The body of pixel `(x, y)` takes the field before it to the field before its successor. -/
theorem ditherBody_fieldBefore {cfg : DitherCfg} {x : Nat} (hx : x < cfg.w) (G : Field) (y : Nat) :
    (ditherBody cfg x y (fieldBefore cfg G (y * cfg.w + x))).1 =
      fieldBefore cfg G (y * cfg.w + (x + 1)) := by
  have hmod : (y * cfg.w + x) % cfg.w = x := by
    rw [Nat.mul_add_mod', Nat.mod_eq_of_lt hx]
  have hdiv : (y * cfg.w + x) / cfg.w = y := by
    rw [Nat.mul_comm, Nat.mul_add_div (by omega), Nat.div_eq_of_lt hx, Nat.add_zero]
  rw [← Nat.add_assoc, fieldBefore_succ, hmod, hdiv]

/-- The rest of a row, from the field before its first pixel. -/
theorem scanRow_fieldBefore {cfg : DitherCfg} (G : Field) (y : Nat) {x k : Nat}
    (hk : x + k ≤ cfg.w) :
    scanRow cfg y (List.range' x k) (fieldBefore cfg G (y * cfg.w + x)) =
      (fieldBefore cfg G (y * cfg.w + (x + k)),
        (List.range' x k).map fun x => scanBit cfg G x y) := by
  induction k generalizing x with
  | zero => rfl
  | succ k ih =>
    rw [List.range'_succ, scanRow_cons, ditherBody_fieldBefore (by omega), ih (by omega),
      Nat.add_assoc x 1 k, Nat.add_comm 1 k]
    rfl

theorem rowReads_fieldBefore {cfg : DitherCfg} (G : Field) (y : Nat) {x k : Nat}
    (hk : x + k ≤ cfg.w) :
    rowReads cfg y (List.range' x k) (fieldBefore cfg G (y * cfg.w + x)) =
      (List.range' x k).map fun x => sampleAt (fieldBefore cfg G (y * cfg.w + x)) x y := by
  induction k generalizing x with
  | zero => rfl
  | succ k ih =>
    rw [List.range'_succ, rowReads, ditherBody_fieldBefore (by omega), ih (by omega), List.map_cons]

/-- One whole row, from the field before it to the field before the next. -/
theorem scanRow_whole (cfg : DitherCfg) (G : Field) (y : Nat) :
    scanRow cfg y (List.range cfg.w) (fieldBefore cfg G (y * cfg.w)) =
      (fieldBefore cfg G ((y + 1) * cfg.w), (List.range cfg.w).map fun x => scanBit cfg G x y) := by
  have := scanRow_fieldBefore (cfg := cfg) G y (x := 0) (k := cfg.w) (by omega)
  rwa [← List.range_eq_range', Nat.zero_add, Nat.add_zero, ← Nat.succ_mul] at this

theorem scanRows_fieldBefore (cfg : DitherCfg) (G : Field) (y k : Nat) :
    scanRows cfg (List.range' y k) (fieldBefore cfg G (y * cfg.w)) =
      (fieldBefore cfg G ((y + k) * cfg.w),
        (List.range' y k).map fun y => (List.range cfg.w).map fun x => scanBit cfg G x y) := by
  induction k generalizing y with
  | zero => rfl
  | succ k ih =>
    rw [List.range'_succ, scanRows_cons, scanRow_whole, ih, Nat.add_assoc y 1 k, Nat.add_comm 1 k,
      List.map_cons]

theorem fieldReads_fieldBefore (cfg : DitherCfg) (G : Field) (y k : Nat) :
    fieldReads cfg (List.range' y k) (fieldBefore cfg G (y * cfg.w)) =
      (List.range' y k).flatMap fun y => (List.range cfg.w).map fun x =>
        sampleAt (fieldBefore cfg G (y * cfg.w + x)) x y := by
  induction k generalizing y with
  | zero => rfl
  | succ k ih =>
    have hrow := rowReads_fieldBefore (cfg := cfg) G y (x := 0) (k := cfg.w) (by omega)
    rw [← List.range_eq_range', Nat.add_zero] at hrow
    rw [List.range'_succ, fieldReads, scanRow_whole, ih, hrow, List.flatMap_cons]

/-- The scan leaves the field after all pixels, and its bits are the raster of the pixels' bits
(42_dither.md R351). -/
theorem scanField_eq (cfg : DitherCfg) (G : Field) :
    scanField cfg G = (fieldBefore cfg G (cfg.w * cfg.h), raster cfg.w cfg.h (scanBit cfg G)) := by
  have := scanRows_fieldBefore cfg G 0 cfg.h
  rwa [← List.range_eq_range', Nat.zero_mul, Nat.zero_add, Nat.mul_comm] at this

theorem ditherBits_eq_raster (cfg : DitherCfg) (G : Field) :
    ditherBits cfg G = raster cfg.w cfg.h (scanBit cfg G) :=
  congrArg Prod.snd (scanField_eq cfg G)

/-- What a scan reads: every pixel's sample in the field before it. -/
theorem mem_fieldReads {cfg : DitherCfg} {G : Field} {v : Int} :
    v ∈ fieldReads cfg (List.range cfg.h) G ↔
      ∃ y < cfg.h, ∃ x < cfg.w, sampleAt (fieldBefore cfg G (y * cfg.w + x)) x y = v := by
  have := fieldReads_fieldBefore cfg G 0 cfg.h
  rw [← List.range_eq_range', Nat.zero_mul, fieldBefore_zero] at this
  simp [this]

theorem shaped_fieldBefore {cfg : DitherCfg} {G : Field} (hG : Shaped cfg.w cfg.h G) (n : Nat) :
    Shaped cfg.w cfg.h (fieldBefore cfg G n) := by
  induction n with
  | zero => exact hG
  | succ n ih => rw [fieldBefore_succ]; exact shaped_ditherBody ih

/-- The pixel number of a pixel of the image. -/
theorem index_lt {w h x y : Nat} (hx : x < w) (hy : y < h) : y * w + x < w * h :=
  calc y * w + x < (y + 1) * w := by rw [Nat.succ_mul]; omega
    _ ≤ h * w := Nat.mul_le_mul_right w hy
    _ = w * h := Nat.mul_comm h w

theorem Shaped.exists_sampleAt {w h : Nat} {F : Field} {row : List Int} {v : Int} (hF : Shaped w h F)
    (hrow : row ∈ F) (hv : v ∈ row) : ∃ x < w, ∃ y < h, sampleAt F x y = v := by
  have hmem : v ∈ (raster w h (sampleAt F)).flatten :=
    hF.eq_raster ▸ List.mem_flatten.2 ⟨row, hrow, hv⟩
  obtain ⟨y, hy, x, hx, hxy⟩ := mem_flatten_raster.1 hmem
  exact ⟨x, hx, y, hy, hxy⟩

/-- A pixel at or before number `n` of the scan lies above pixel `n`, or in its row and not to the right. -/
theorem not_later_of_index_le {w x y n : Nat} (hx : x < w) (hn : y * w + x ≤ n) :
    y < n / w ∨ (y = n / w ∧ x ≤ n % w) := by
  have hle : y ≤ n / w := (Nat.le_div_iff_mul_le (by omega)).2 (by omega)
  rcases hle.lt_or_eq with hlt | rfl
  · exact .inl hlt
  · have := Nat.div_add_mod' n w
    exact .inr ⟨rfl, by omega⟩

/-- The value of a pixel is final from the field before it on (42_dither.md R351). -/
theorem sampleAt_fieldBefore_of_le {cfg : DitherCfg} {x y n : Nat} (hx : x < cfg.w) (G : Field)
    (hn : y * cfg.w + x ≤ n) :
    sampleAt (fieldBefore cfg G n) x y = sampleAt (fieldBefore cfg G (y * cfg.w + x)) x y := by
  induction n, hn using Nat.le_induction with
  | base => rfl
  | succ n hn ih =>
    rw [fieldBefore_succ, sampleAt_ditherBody_of_not_later _ _ (not_later_of_index_le hx hn), ih]

theorem fieldBefore_of_pointwise {cfg : DitherCfg}
    (hmode : cfg.mode = .ordered8x8 ∨ cfg.mode = .flat) (G : Field) (n : Nat) :
    fieldBefore cfg G n = G := by
  induction n with
  | zero => rfl
  | succ n ih => rw [fieldBefore_succ, ditherBody_fst_of_pointwise hmode, ih]

theorem fieldBefore_invert (cfg : DitherCfg) (G : Field) (n : Nat) (b : Bool) :
    fieldBefore { cfg with invert := b } G n = fieldBefore cfg G n := rfl

end Sys2Proof.Machine
end

section
/-! SUPPORT. The working range of error diffusion (42_dither.md R370): what a cell has gained is at most what
the pixels visited so far could give it with the largest error. -/

namespace Sys2Proof.Machine

/-- What a source before pixel `n` of the scan of rows of `w` can add to the cell `(x', y')` by a share
that is at most `share`. -/
def shareBudget (w n x' y' : Nat) (share : Int × Nat × Int) : Int :=
  if ((y' : Int) - share.2.1) * w + (x' - share.1) < n then share.2.2 else 0

/-- What the pixels before number `n` of the scan can add to the cell `(x', y')` in all. -/
def budgetBefore (w n x' y' : Nat) (shares : List (Int × Nat × Int)) : Int :=
  (shares.map (shareBudget w n x' y')).sum

/-- A share goes to the same target as another and is no larger. -/
def ShareWithin (small large : Int × Nat × Int) : Prop :=
  small.1 = large.1 ∧ small.2.1 = large.2.1 ∧ |small.2.2| ≤ large.2.2

/-- Every share is largest for the largest error (42_dither.md R370). -/
theorem errorShares_within (m : Mode) {e : Int} (he : |e| ≤ full) :
    List.Forall₂ ShareWithin (errorShares m e) (errorShares m full) := by
  rw [abs_le, full] at he
  cases m with
  | floydSteinberg =>
    simp only [errorShares, floydShares, List.forall₂_cons, ShareWithin, tdiv, tdiv_eq_ite, full,
      true_and,
      List.Forall₂.nil, and_true, abs_le]
    omega
  | atkinson =>
    simp only [errorShares, atkinsonShares, List.forall₂_cons, ShareWithin, tdiv, tdiv_eq_ite, full,
      true_and,
      List.Forall₂.nil, and_true, abs_le]
    omega
  | ordered8x8 => exact .nil
  | flat => exact .nil

theorem nonneg_of_mem_errorShares_full (m : Mode) :
    ∀ share ∈ errorShares m full, 0 ≤ share.2.2 := by
  cases m <;> decide

theorem sum_errorShares_full_le (m : Mode) :
    ((errorShares m full).map fun share => share.2.2).sum ≤ full := by
  cases m <;> decide

theorem shareBudget_bounds {share : Int × Nat × Int} (h : 0 ≤ share.2.2) (w n x' y' : Nat) :
    0 ≤ shareBudget w n x' y' share ∧ shareBudget w n x' y' share ≤ share.2.2 := by
  unfold shareBudget
  split
  · exact ⟨h, le_rfl⟩
  · exact ⟨le_rfl, h⟩

theorem budgetBefore_nonneg (w n x' y' : Nat) (m : Mode) :
    0 ≤ budgetBefore w n x' y' (errorShares m full) := by
  refine List.sum_nonneg fun b hb => ?_
  obtain ⟨share, hshare, rfl⟩ := List.mem_map.1 hb
  exact (shareBudget_bounds (nonneg_of_mem_errorShares_full m share hshare) w n x' y').1

/-- The weights a cell receives total at most 1 (42_dither.md R370). -/
theorem budgetBefore_le_full (w n x' y' : Nat) (m : Mode) :
    budgetBefore w n x' y' (errorShares m full) ≤ full :=
  calc budgetBefore w n x' y' (errorShares m full)
      ≤ ((errorShares m full).map fun share => share.2.2).sum :=
        List.sum_le_sum fun share hshare =>
          (shareBudget_bounds (nonneg_of_mem_errorShares_full m share hshare) w n x' y').2
    _ ≤ full := sum_errorShares_full_le m

/-- The share of pixel `(x, y)` is paid from the budget that its pixel number frees. -/
theorem abs_shareGain_le {small large : Int × Nat × Int} (h : ShareWithin small large)
    (w x y x' y' : Nat) :
    |shareGain x y small x' y'| ≤ shareBudget w (y * w + x + 1) x' y' large -
      shareBudget w (y * w + x) x' y' large := by
  obtain ⟨hdx, hdy, hle⟩ := h
  have hpos : 0 ≤ large.2.2 := (abs_nonneg _).trans hle
  unfold shareGain shareBudget
  split
  case isTrue htarget =>
    have hsource : ((y' : Int) - large.2.1) * w + (x' - large.1) = (y * w + x : Nat) := by
      obtain ⟨hx', hy'⟩ := htarget
      rw [hx', hy', ← hdx, ← hdy]
      push_cast
      ring
    rw [hsource, if_pos (by omega), if_neg (by omega), sub_zero]
    exact hle
  case isFalse =>
    rw [abs_zero]
    split_ifs <;> omega

theorem abs_sum_shareGain_le {small large : List (Int × Nat × Int)}
    (h : List.Forall₂ ShareWithin small large) (w x y x' y' : Nat) :
    |(small.map fun share => shareGain x y share x' y').sum| ≤
      budgetBefore w (y * w + x + 1) x' y' large - budgetBefore w (y * w + x) x' y' large := by
  unfold budgetBefore
  induction h with
  | nil => simp
  | @cons s l ss ls hs _ ih =>
    have hshare := abs_shareGain_le hs w x y x' y'
    simp only [List.map_cons, List.sum_cons]
    rw [abs_le] at *
    omega

/-- The error of a sample in `-FULL..2*FULL` is in `-FULL..FULL` (42_dither.md R370). -/
theorem abs_quantError_le {threshold : Nat} {v : Int} (ht : threshold ≤ 255)
    (hv : -65280 ≤ v ∧ v ≤ 130560) : |quantError threshold v| ≤ full := by
  rw [quantError_eq, abs_le, full]
  split <;> omega

/-- A cell's sample has moved from `G` by at most the budget of the pixels visited. -/
def WithinBudget (cfg : DitherCfg) (G : Field) (n : Nat) : Prop :=
  ∀ x y, x < cfg.w → y < cfg.h → |sampleAt (fieldBefore cfg G n) x y - sampleAt G x y| ≤
    budgetBefore cfg.w n x y (errorShares cfg.mode full)

theorem WithinBudget.range {cfg : DitherCfg} {G : Field} {n x y : Nat} (h : WithinBudget cfg G n)
    (hG : preparedShape cfg.w cfg.h G) (hx : x < cfg.w) (hy : y < cfg.h) :
    -65280 ≤ sampleAt (fieldBefore cfg G n) x y ∧
      sampleAt (fieldBefore cfg G n) x y ≤ 130560 := by
  have hmoved := abs_le.1 ((h x y hx hy).trans (budgetBefore_le_full _ _ _ _ _))
  have hstart := (preparedShape_iff.1 hG).2 x y hx hy
  rw [full] at hmoved
  omega

/-- One body keeps every cell within its budget: the sample it reads is in range, so its error is. -/
theorem WithinBudget.succ {cfg : DitherCfg} {G : Field} {x y : Nat} (ht : cfg.threshold ≤ 255)
    (hG : preparedShape cfg.w cfg.h G) (hx : x < cfg.w) (hy : y < cfg.h)
    (h : WithinBudget cfg G (y * cfg.w + x)) : WithinBudget cfg G (y * cfg.w + x + 1) := by
  intro x' y' hx' hy'
  have hshape := shaped_fieldBefore (preparedShape_iff.1 hG).1 (y * cfg.w + x)
  have herror := abs_quantError_le ht (h.range hG hx hy)
  have hgain := abs_sum_shareGain_le (errorShares_within cfg.mode herror) cfg.w x y x' y'
  have hbefore := h x' y' hx' hy'
  have hafter := sampleAt_diffuse hshape hx' hy' (x := x) (y := y)
    (spread cfg (sampleAt (fieldBefore cfg G (y * cfg.w + x)) x y))
  rw [← ditherBody_fst, ditherBody_fieldBefore hx, ← Nat.add_assoc, spread_eq_errorShares] at hafter
  rw [hafter]
  rw [abs_le] at *
  omega

theorem withinBudget {cfg : DitherCfg} {G : Field} (ht : cfg.threshold ≤ 255)
    (hG : preparedShape cfg.w cfg.h G) {n : Nat} (hn : n ≤ cfg.w * cfg.h) :
    WithinBudget cfg G n := by
  induction n with
  | zero =>
    intro x y _ _
    simpa using budgetBefore_nonneg cfg.w 0 x y cfg.mode
  | succ n ih =>
    have hw : 0 < cfg.w := Nat.pos_of_mul_pos_right (by omega : 0 < cfg.w * cfg.h)
    have hy : n / cfg.w < cfg.h := Nat.div_lt_of_lt_mul (by omega)
    have hstep := WithinBudget.succ ht hG (Nat.mod_lt n hw) hy
    rw [Nat.div_add_mod' n cfg.w] at hstep
    exact hstep (ih (by omega))

end Sys2Proof.Machine
end

section
/-! SUPPORT. The complement of a raster, byte by byte (42_dither.md R371). -/

namespace Sys2Proof.Machine

theorem packByte_map_not {row : List Bool} {b : Nat} (hb : 8 * b + 8 ≤ row.length) :
    packByte (row.map fun p => !p) b = ~~~packByte row b := by
  refine BitVec.eq_of_getLsbD_eq fun j hj => ?_
  obtain ⟨i, hi, rfl⟩ : ∃ i < 8, j = 7 - i := ⟨7 - j, by omega, by omega⟩
  have hpixel : 8 * b + i < row.length := by omega
  rw [BitVec.getLsbD_not, getLsbD_packByte _ _ hi, getLsbD_packByte _ _ hi]
  simp [hpixel, hj]

theorem packBits_map_not {bpl : Nat} {B : Bits} (hB : ∀ row ∈ B, row.length = 8 * bpl) :
    packBits bpl (B.map fun row => row.map fun p => !p) =
      (packBits bpl B).map fun b => ~~~b := by
  rw [packBits, packBits, List.flatMap_map, List.map_flatMap]
  refine List.flatMap_congr fun row hrow => ?_
  rw [List.map_map]
  refine List.map_congr_left fun b hb => packByte_map_not ?_
  have := List.mem_range.1 hb
  rw [hB row hrow]
  omega

theorem ditherBits_invert (cfg : DitherCfg) (G : Field) :
    ditherBits { cfg with invert := true } G =
      (ditherBits { cfg with invert := false } G).map fun row => row.map fun b => !b := by
  rw [ditherBits_eq_raster, ditherBits_eq_raster, map_raster]
  refine raster_congr fun x y _ _ => ?_
  simp only [scanBit, fieldBefore_invert, ditherBody_snd, Bool.xor_true, Bool.xor_false]
  rfl

end Sys2Proof.Machine
end

section
/-! The statements about dithering (42_dither.md R350-R371). -/

namespace Sys2Proof.Machine

/-- Settles O49: of the four shares at most one has the cell as its target. -/
theorem floydBodyContributions : Obligations.FloydBodyContributions := by
  intro cfg x y x' y' F hmode hlen hrows hx hy hx' hy' v T e
  have he : quantError cfg.threshold (sampleAt F x y) = e := quantError_eq _ _
  have hhit {share : Int × Nat × Int} (hmem : share ∈ floydShares e)
      (htarget : (x' : Int) = x + share.1 ∧ y' = y + share.2.1) :=
    sum_shareGain_of_target (pairwise_targets_errorShares .floydSteinberg e) hmem htarget
  refine ⟨by rw [ditherBody_snd, decision_of_diffusing (.inl hmode)], ?_⟩
  rw [ditherBody_fst_of_floyd hmode, sampleAt_diffuse ⟨hlen, hrows⟩ hx' hy', he]
  congr 1
  split_ifs with hright hleft hcentre hdiagonal
  · exact hhit (mem_floydShares.2 (.inl rfl)) (by dsimp only; omega)
  · exact hhit (mem_floydShares.2 (.inr (.inl rfl))) (by dsimp only; omega)
  · exact hhit (mem_floydShares.2 (.inr (.inr (.inl rfl)))) (by dsimp only; omega)
  · exact hhit (mem_floydShares.2 (.inr (.inr (.inr rfl)))) (by dsimp only; omega)
  · refine sum_shareGain_of_ne fun share hshare => ?_
    rcases mem_floydShares.1 hshare with rfl | rfl | rfl | rfl
    all_goals dsimp only; omega

/-- Settles O50: of the six shares, all equal, at most one has the cell as its target. -/
theorem atkinsonBodyContributions : Obligations.AtkinsonBodyContributions := by
  intro cfg x y x' y' F hmode hlen hrows hx hy hx' hy' v T e
  have he : quantError cfg.threshold (sampleAt F x y) = e := quantError_eq _ _
  have hhit {share : Int × Nat × Int} (hmem : share ∈ atkinsonShares e)
      (htarget : (x' : Int) = x + share.1 ∧ y' = y + share.2.1) :=
    sum_shareGain_of_target (pairwise_targets_errorShares .atkinson e) hmem htarget
  refine ⟨by rw [ditherBody_snd, decision_of_diffusing (.inr hmode)], ?_⟩
  rw [ditherBody_fst_of_atkinson hmode, sampleAt_diffuse ⟨hlen, hrows⟩ hx' hy', he]
  congr 1
  split_ifs with hin
  · rcases hin with ⟨hrow, hcol | hcol⟩ | ⟨hrow, hcol | hcol | hcol⟩ | ⟨hrow, hcol⟩
    · exact hhit (mem_atkinsonShares.2 (.inl rfl)) (by dsimp only; omega)
    · exact hhit (mem_atkinsonShares.2 (.inr (.inl rfl))) (by dsimp only; omega)
    · exact hhit (mem_atkinsonShares.2 (.inr (.inr (.inl rfl)))) (by dsimp only; omega)
    · exact hhit (mem_atkinsonShares.2 (.inr (.inr (.inr (.inl rfl))))) (by dsimp only; omega)
    · exact hhit (mem_atkinsonShares.2 (.inr (.inr (.inr (.inr (.inl rfl)))))) (by dsimp only; omega)
    · exact hhit (mem_atkinsonShares.2 (.inr (.inr (.inr (.inr (.inr rfl)))))) (by dsimp only; omega)
  · refine sum_shareGain_of_ne fun share hshare => ?_
    rcases mem_atkinsonShares.1 hshare with rfl | rfl | rfl | rfl | rfl | rfl
    all_goals dsimp only; omega

/-- Settles O51: every share goes to a later cell. -/
theorem bodyWritesOnlyLaterCells : Obligations.BodyWritesOnlyLaterCells :=
  fun cfg _ _ _ _ F h => sampleAt_ditherBody_of_not_later cfg F h

/-- Settles O52: the total grows by the shares kept, and the four quotients of an interior pixel
lose the remainder of the division to truncation. -/
theorem floydConservesError : Obligations.FloydConservesError := by
  intro cfg x y F hmode hlen hrows hx hy e F'
  have hF : Shaped cfg.w cfg.h F := ⟨hlen, hrows⟩
  have hF' : F' = diffuse cfg.w cfg.h x y F (floydShares e) := ditherBody_fst_of_floyd hmode x y F
  have htotal : fieldTotal F' = fieldTotal F + (if x + 1 < cfg.w then Int.tdiv (7 * e) 16 else 0) +
      (if y + 1 < cfg.h ∧ 1 ≤ x then Int.tdiv (3 * e) 16 else 0) +
      (if y + 1 < cfg.h then Int.tdiv (5 * e) 16 else 0) +
      (if y + 1 < cfg.h ∧ x + 1 < cfg.w then Int.tdiv e 16 else 0) := by
    rw [hF', fieldTotal_diffuse hF]
    simp only [floydShares, List.map_cons, List.map_nil, List.sum_cons, List.sum_nil, tdiv, one_mul]
    rw [shareKept_eq_ite (inside := x + 1 < cfg.w) (by dsimp only; omega),
      shareKept_eq_ite (inside := y + 1 < cfg.h ∧ 1 ≤ x) (by dsimp only; omega),
      shareKept_eq_ite (inside := y + 1 < cfg.h) (by dsimp only; omega),
      shareKept_eq_ite (inside := y + 1 < cfg.h ∧ x + 1 < cfg.w) (by dsimp only; omega)]
    ring
  obtain ⟨hlen', hrows'⟩ := shaped_ditherBody (x := x) (y := y) hF
  refine ⟨hlen', hrows', htotal, fun hleft hright hbelow => ?_⟩
  rw [if_pos (by omega), if_pos (by omega), if_pos (by omega), if_pos (by omega)] at htotal
  refine ⟨e - (fieldTotal F' - fieldTotal F), by omega, ?_⟩
  rw [htotal]
  simp only [tdiv_eq_ite]
  omega

/-- Settles O53: all six targets of an interior pixel lie inside. -/
theorem atkinsonLosesQuarterOfError : Obligations.AtkinsonLosesQuarterOfError := by
  intro cfg x y F hmode hlen hrows hleft hright hbelow e
  have hbody : (ditherBody cfg x y F).1 = diffuse cfg.w cfg.h x y F (atkinsonShares e) :=
    ditherBody_fst_of_atkinson hmode x y F
  refine ⟨?_, fun he => ?_, fun x' y' hne => ?_⟩
  · have hkept : ∀ share ∈ atkinsonShares e, shareKept cfg.w cfg.h x y share = Int.tdiv e 8 := by
      intro share hshare
      rcases mem_atkinsonShares.1 hshare with rfl | rfl | rfl | rfl | rfl | rfl
      all_goals exact if_pos (by dsimp only; omega)
    rw [hbody, fieldTotal_diffuse ⟨hlen, hrows⟩, List.map_congr_left hkept, List.map_const',
      List.sum_replicate]
    rfl
  · have := Int.mul_tdiv_cancel' (Int.dvd_of_emod_eq_zero he)
    omega
  · rw [hbody]
    refine sampleAt_diffuse_of_ne fun share hshare => ?_
    simp only [List.mem_cons, List.not_mem_nil, Prod.mk.injEq, or_false] at hne
    rcases mem_atkinsonShares.1 hshare with rfl | rfl | rfl | rfl | rfl | rfl
    all_goals dsimp only; omega

/-- Settles O54: every cell stays within the budget of the pixels visited, and what the scan reads are
cells of the fields it passes through. -/
theorem errorDiffusionWorkingRange : Obligations.ErrorDiffusionWorkingRange := by
  intro cfg G _ ht hG
  refine ⟨fun n hn row hrow v hv => ?_, fun v hv => ?_⟩
  · have hshape := shaped_fieldBefore (preparedShape_iff.1 hG).1 n
    obtain ⟨x, hx, y, hy, rfl⟩ := hshape.exists_sampleAt hrow hv
    have := (withinBudget ht hG hn).range hG hx hy
    omega
  · obtain ⟨y, hy, x, hx, rfl⟩ := mem_fieldReads.1 hv
    have hn : y * cfg.w + x ≤ cfg.w * cfg.h := (index_lt hx hy).le
    have hrange := (withinBudget ht hG hn).range hG hx hy
    have herror := abs_le.1 (abs_quantError_le ht hrange)
    rw [full] at herror
    omega

/-- Settles O55: the working field does not depend on the invert stage. -/
theorem invertComplementsRaster : Obligations.InvertComplementsRaster := by
  intro cfg G bpl hw
  refine ⟨ditherBits_invert cfg G, ?_⟩
  rw [ditherBits_invert, packBits_map_not]
  intro row hrow
  rw [(shaped_ditherBits _ G).2 row hrow, hw]

/-- Settles O56: the field before each pixel is still `G`. -/
theorem orderedAndFlatPointwise : Obligations.OrderedAndFlatPointwise := by
  intro cfg x y G hx hy
  have hbit (hmode : cfg.mode = .ordered8x8 ∨ cfg.mode = .flat) : bitAt (ditherBits cfg G) x y =
      (decision cfg x y (sampleAt G x y)).xor cfg.invert := by
    rw [ditherBits_eq_raster, bitAt_raster _ hx hy, scanBit, fieldBefore_of_pointwise hmode,
      ditherBody_snd]
  refine ⟨fun hmode => ⟨ditherBody_fst_of_pointwise hmode x y G, ?_⟩, fun hmode => ?_, fun hmode => ?_⟩
  · rw [scanField_eq, fieldBefore_of_pointwise hmode]
  · rw [hbit (.inl hmode), decision_of_ordered hmode]
    rfl
  · rw [hbit (.inr hmode), decision_of_flat hmode]

/-- Settles O59: the scan is the raster of the bodies' bits, each on the field before its pixel. -/
theorem scanIsRowMajor : Obligations.ScanIsRowMajor := by
  intro cfg G
  obtain ⟨hlen, hrows⟩ := shaped_ditherBits cfg G
  refine ⟨congrArg Prod.fst (scanField_eq cfg G), hlen, hrows, bodyWritesOnlyLaterCells cfg,
    fun x y hx hy => ⟨?_, fun n hn => sampleAt_fieldBefore_of_le hx G hn⟩⟩
  rw [ditherBits_eq_raster, bitAt_raster _ hx hy, scanBit]

end Sys2Proof.Machine
end

section
/-! SUPPORT. How far error diffusion can lower a sample: at most by the distance of `FULL` from the
threshold, so a sample of level 255 stays at or above the threshold (42_dither.md R353, 43_pack.md R406). -/

namespace Sys2Proof.Machine

/-! ### A scan pixel by pixel -/

/-- What holds at the start of a scan, and stays true when the body of each pixel runs, holds before every
pixel and at the end (42_dither.md R351). -/
theorem scan_induction {w h : Nat} {P : Nat → Prop} (zero : P 0)
    (succ : ∀ x y, x < w → y < h → P (y * w + x) → P (y * w + x + 1)) {n : Nat} (hn : n ≤ w * h) :
    P n := by
  induction n with
  | zero => exact zero
  | succ n ih =>
    have hw : 0 < w := Nat.pos_of_mul_pos_right (by omega : 0 < w * h)
    have hstep := succ (n % w) (n / w) (Nat.mod_lt n hw) (Nat.div_lt_of_lt_mul (by omega))
    rw [Nat.div_add_mod' n w] at hstep
    exact hstep (ih (by omega))

/-! ### How the shares depend on the error -/

/-- A share goes to the same target as another and is no larger. -/
def ShareAtMost (small large : Int × Nat × Int) : Prop :=
  small.1 = large.1 ∧ small.2.1 = large.2.1 ∧ small.2.2 ≤ large.2.2

/-- Every share grows with the error. -/
theorem errorShares_mono (m : Mode) {e e' : Int} (h : e ≤ e') :
    List.Forall₂ ShareAtMost (errorShares m e) (errorShares m e') := by
  have hshare (k d : Int) (hk : 0 ≤ k) (hd : 0 < d) : Int.tdiv (k * e) d ≤ Int.tdiv (k * e') d :=
    Int.tdiv_le_tdiv hd (Int.mul_le_mul_of_nonneg_left h hk)
  cases m with
  | floydSteinberg => simp [errorShares, floydShares, ShareAtMost, tdiv, hshare, Int.tdiv_le_tdiv, h]
  | atkinson => simp [errorShares, atkinsonShares, ShareAtMost, tdiv, Int.tdiv_le_tdiv, h]
  | ordered8x8 => exact .nil
  | flat => exact .nil

theorem shareGain_mono {small large : Int × Nat × Int} (h : ShareAtMost small large)
    (x y x' y' : Nat) : shareGain x y small x' y' ≤ shareGain x y large x' y' := by
  obtain ⟨hdx, hdy, hle⟩ := h
  unfold shareGain
  rw [hdx, hdy]
  split
  · exact hle
  · exact le_rfl

/-- What a cell gains from a pixel grows with the pixel's error. -/
theorem sum_shareGain_mono (m : Mode) {e e' : Int} (h : e ≤ e') (x y x' y' : Nat) :
    ((errorShares m e).map fun share => shareGain x y share x' y').sum ≤
      ((errorShares m e').map fun share => shareGain x y share x' y').sum := by
  refine List.Forall₂.sum_le_sum ?_
  rw [List.forall₂_map_left_iff, List.forall₂_map_right_iff]
  exact (errorShares_mono m h).imp fun _ _ hle => shareGain_mono hle x y x' y'

/-- The shares of an error and of its opposite have the same size. -/
theorem errorShares_neg_within (m : Mode) {e : Int} (he : 0 ≤ e) :
    List.Forall₂ ShareWithin (errorShares m (-e)) (errorShares m e) := by
  have hshare (k d : Int) (hk : 0 ≤ k) (hd : 0 ≤ d) : 0 ≤ Int.tdiv (k * e) d :=
    Int.tdiv_nonneg (Int.mul_nonneg hk he) hd
  cases m with
  | floydSteinberg =>
    simp [errorShares, floydShares, ShareWithin, tdiv, Int.neg_tdiv, hshare, Int.tdiv_nonneg, he,
      abs_of_nonneg]
  | atkinson =>
    simp [errorShares, atkinsonShares, ShareWithin, tdiv, Int.neg_tdiv, Int.tdiv_nonneg, he,
      abs_of_nonneg]
  | ordered8x8 => exact .nil
  | flat => exact .nil

theorem nonneg_of_mem_errorShares {m : Mode} {e : Int} (he : 0 ≤ e) {share : Int × Nat × Int}
    (h : share ∈ errorShares m e) : 0 ≤ share.2.2 := by
  cases m with
  | floydSteinberg =>
    rcases mem_floydShares.1 h with rfl | rfl | rfl | rfl
    all_goals exact Int.tdiv_nonneg (by omega) (by decide)
  | atkinson =>
    rcases mem_atkinsonShares.1 h with rfl | rfl | rfl | rfl | rfl | rfl
    all_goals exact Int.tdiv_nonneg he (by decide)
  | ordered8x8 => simp [errorShares] at h
  | flat => simp [errorShares] at h

/-- The weights of a mode total at most 1 (42_dither.md R355, R360). -/
theorem sum_errorShares_le (m : Mode) {e : Int} (he : 0 ≤ e) :
    ((errorShares m e).map fun share => share.2.2).sum ≤ e := by
  cases m with
  | floydSteinberg =>
    simp only [errorShares, floydShares, tdiv, tdiv_eq_ite, List.map_cons, List.map_nil,
      List.sum_cons, List.sum_nil]
    omega
  | atkinson =>
    simp only [errorShares, atkinsonShares, tdiv, tdiv_eq_ite, List.map_cons, List.map_nil,
      List.sum_cons, List.sum_nil]
    omega
  | ordered8x8 => exact he
  | flat => exact he

/-- What a cell can gain by shares of an error lies between nothing and that error. -/
theorem budgetBefore_errorShares_bounds (w n x' y' : Nat) (m : Mode) {e : Int} (he : 0 ≤ e) :
    0 ≤ budgetBefore w n x' y' (errorShares m e) ∧
      budgetBefore w n x' y' (errorShares m e) ≤ e := by
  have hbudget (share : Int × Nat × Int) (h : share ∈ errorShares m e) :=
    shareBudget_bounds (nonneg_of_mem_errorShares he h) w n x' y'
  constructor
  · refine List.sum_nonneg fun b hb => ?_
    obtain ⟨share, hshare, rfl⟩ := List.mem_map.1 hb
    exact (hbudget share hshare).1
  · exact (List.sum_le_sum fun share hshare => (hbudget share hshare).2).trans
      (sum_errorShares_le m he)

/-- A pixel whose error is at least `-e` takes no more from a cell than the budget of `e` that it frees. -/
theorem neg_budget_le_sum_shareGain (m : Mode) {e v : Int} (he : 0 ≤ e) (hv : -e ≤ v)
    (w x y x' y' : Nat) :
    -(budgetBefore w (y * w + x + 1) x' y' (errorShares m e) -
        budgetBefore w (y * w + x) x' y' (errorShares m e)) ≤
      ((errorShares m v).map fun share => shareGain x y share x' y').sum :=
  calc _ ≤ ((errorShares m (-e)).map fun share => shareGain x y share x' y').sum :=
        (abs_le.1 (abs_sum_shareGain_le (errorShares_neg_within m he) w x y x' y')).1
    _ ≤ _ := sum_shareGain_mono m hv x y x' y'

/-! ### What a sample can lose -/

/-- The most a sample at or above the threshold lies below `FULL` (42_dither.md R353). -/
def whiteSlack (threshold : Nat) : Int := full - levelUnits threshold

theorem whiteSlack_eq (threshold : Nat) : whiteSlack threshold = 65280 - threshold * 256 := rfl

theorem whiteSlack_nonneg {threshold : Nat} (ht : threshold ≤ 255) : 0 ≤ whiteSlack threshold := by
  rw [whiteSlack_eq]
  omega

/-- A sample that is not below `-whiteSlack` has an error that is not either: a white one lies at most the
slack below `FULL`, a black one is its own error. -/
theorem neg_whiteSlack_le_quantError {threshold : Nat} {v : Int} (hv : -whiteSlack threshold ≤ v) :
    -whiteSlack threshold ≤ quantError threshold v := by
  rw [whiteSlack_eq] at *
  rw [quantError_eq]
  split
  · exact hv
  · omega

/-- A cell's sample has lost at most what the pixels visited can take with errors of at least
`-whiteSlack`. -/
def LossWithinSlack (cfg : DitherCfg) (G : Field) (n : Nat) : Prop :=
  ∀ x y, x < cfg.w → y < cfg.h → sampleAt G x y - sampleAt (fieldBefore cfg G n) x y ≤
    budgetBefore cfg.w n x y (errorShares cfg.mode (whiteSlack cfg.threshold))

theorem LossWithinSlack.le_sampleAt {cfg : DitherCfg} {G : Field} {n x y : Nat}
    (h : LossWithinSlack cfg G n) (ht : cfg.threshold ≤ 255) (hx : x < cfg.w) (hy : y < cfg.h) :
    sampleAt G x y - whiteSlack cfg.threshold ≤ sampleAt (fieldBefore cfg G n) x y := by
  have hloss := (h x y hx hy).trans
    (budgetBefore_errorShares_bounds cfg.w n x y cfg.mode (whiteSlack_nonneg ht)).2
  omega

/-- One body takes from every cell no more than its budget: the sample it reads, and so its error, is at
least `-whiteSlack`. -/
theorem LossWithinSlack.succ {cfg : DitherCfg} {G : Field} {x y : Nat} (ht : cfg.threshold ≤ 255)
    (hG : preparedShape cfg.w cfg.h G) (hx : x < cfg.w) (hy : y < cfg.h)
    (h : LossWithinSlack cfg G (y * cfg.w + x)) : LossWithinSlack cfg G (y * cfg.w + x + 1) := by
  intro x' y' hx' hy'
  obtain ⟨hshape, hrange⟩ := preparedShape_iff.1 hG
  obtain ⟨hnonneg, -⟩ := hrange x y hx hy
  have hread := h.le_sampleAt ht hx hy
  have herror : -whiteSlack cfg.threshold ≤
      quantError cfg.threshold (sampleAt (fieldBefore cfg G (y * cfg.w + x)) x y) :=
    neg_whiteSlack_le_quantError (by omega)
  have hgain := neg_budget_le_sum_shareGain cfg.mode (whiteSlack_nonneg ht) herror cfg.w x y x' y'
  have hbefore := h x' y' hx' hy'
  rw [Nat.add_assoc, ← ditherBody_fieldBefore hx, ditherBody_fst, spread_eq_errorShares,
    sampleAt_diffuse (shaped_fieldBefore hshape _) hx' hy', ← Nat.add_assoc]
  omega

theorem lossWithinSlack {cfg : DitherCfg} {G : Field} (ht : cfg.threshold ≤ 255)
    (hG : preparedShape cfg.w cfg.h G) {n : Nat} (hn : n ≤ cfg.w * cfg.h) :
    LossWithinSlack cfg G n := by
  refine scan_induction (fun x y _ _ => ?_) (fun x y hx hy h => h.succ ht hG hx hy) hn
  rw [fieldBefore_zero, sub_self]
  exact (budgetBefore_errorShares_bounds cfg.w 0 x y cfg.mode (whiteSlack_nonneg ht)).1

/-- When its pixel is visited, a sample of level 255 is still at or above the threshold. -/
theorem threshold_le_fieldBefore_of_full {cfg : DitherCfg} {G : Field} {x y : Nat}
    (ht : cfg.threshold ≤ 255) (hG : preparedShape cfg.w cfg.h G) (hx : x < cfg.w) (hy : y < cfg.h)
    (hfull : sampleAt G x y = 65280) :
    (cfg.threshold : Int) * 256 ≤ sampleAt (fieldBefore cfg G (y * cfg.w + x)) x y := by
  have hkept := (lossWithinSlack ht hG (index_lt hx hy).le).le_sampleAt ht hx hy
  rw [hfull, whiteSlack_eq] at hkept
  omega

/-! ### Level 255 in Ordered8x8 -/

theorem bayer_le (r c : Nat) : bayer r c ≤ 63 := by
  have hrom : ∀ n ∈ bayerRom, n ≤ 63 := by decide
  rw [bayer, List.getD_eq_getElem?_getD]
  cases hn : bayerRom[8 * r + c]? with
  | none => exact Nat.zero_le 63
  | some n => exact hrom n (List.mem_of_getElem? hn)

/-- The largest Ordered8x8 threshold is level 254, and level 255 with the offset of `THRESHOLD` = 129 is
level 254 (42_dither.md R364, 43_pack.md R406). -/
theorem decision_full_of_ordered {cfg : DitherCfg} (hmode : cfg.mode = .ordered8x8)
    (ht : cfg.threshold ≤ 129) (x y : Nat) : decision cfg x y 65280 = false := by
  have hbayer := bayer_le (y % 8) (x % 8)
  rw [decision_of_ordered hmode, decide_eq_false_iff_not, clamp]
  split_ifs <;> omega

end Sys2Proof.Machine
end

section
/-! SUPPORT. The packer's bytes and the bits they hold, both ways (43_pack.md R400, R405, R410). -/

namespace Sys2Proof.Machine

/-- An image of `h` rows of `w` values is the raster of its values. -/
theorem Shaped.eq_raster_getD {α : Type} {w h : Nat} {F : List (List α)} (hF : Shaped w h F) (d : α) :
    F = raster w h fun x y => (F.getD y []).getD x d := by
  obtain ⟨hlen, hrows⟩ := hF
  refine List.ext_getElem (by simp [raster, hlen]) fun y hy _ => ?_
  refine List.ext_getElem (by simp [raster, hrows _ (List.getElem_mem hy)]) fun x hx _ => ?_
  simp [raster, hy, hx]

theorem shaped_unpackBits (bpl h : Nat) (ras : List Byte) :
    Shaped (8 * bpl) h (unpackBits bpl h ras) := shaped_raster _ _ _

theorem bitAt_unpackBits {bpl h x y : Nat} (ras : List Byte) (hx : x < 8 * bpl) (hy : y < h) :
    bitAt (unpackBits bpl h ras) x y =
      (ras.getD (y * bpl + x / 8) 0#8).getLsbD (7 - x % 8) := bitAt_raster _ hx hy

/-- Pixel `(x, y)` of an image in its packed form (43_pack.md R400, R402). -/
theorem getLsbD_packBits {w h bpl x y : Nat} {B : Bits} (hB : Shaped w h B) (hx : x < 8 * bpl)
    (hy : y < h) :
    ((packBits bpl B).getD (y * bpl + x / 8) 0#8).getLsbD (7 - x % 8) = bitAt B x y := by
  rw [List.getD_eq_getElem?_getD, getElem?_packBits hB hy (by omega), Option.getD_some,
    getLsbD_packByte _ _ (Nat.mod_lt _ (by decide)), Nat.div_add_mod]
  rfl

/-- Bytes whose bits `7 - i` agree are equal. -/
theorem byte_eq_of_pixels {a b : Byte} (h : ∀ i < 8, a.getLsbD (7 - i) = b.getLsbD (7 - i)) :
    a = b := by
  refine BitVec.eq_of_getLsbD_eq fun j hj => ?_
  have := h (7 - j) (by omega)
  rwa [Nat.sub_sub_self (by omega)] at this

/-- Packing row `y` of an unpacked raster gives its byte `b` again. -/
theorem packByte_unpackBits {bpl h b y : Nat} (ras : List Byte) (hb : b < bpl) (hy : y < h) :
    packByte ((unpackBits bpl h ras).getD y []) b = ras.getD (y * bpl + b) 0#8 := by
  refine byte_eq_of_pixels fun i hi => ?_
  have hdiv : (8 * b + i) / 8 = b := by omega
  have hmod : (8 * b + i) % 8 = i := by omega
  calc (packByte ((unpackBits bpl h ras).getD y []) b).getLsbD (7 - i)
      = bitAt (unpackBits bpl h ras) (8 * b + i) y := getLsbD_packByte _ b hi
    _ = (ras.getD (y * bpl + b) 0#8).getLsbD (7 - i) := by
      rw [bitAt_unpackBits ras (by omega) hy, hdiv, hmod]

theorem unpackBits_packBits {bpl h : Nat} {B : Bits} (hB : Shaped (8 * bpl) h B) :
    unpackBits bpl h (packBits bpl B) = B :=
  calc unpackBits bpl h (packBits bpl B)
      = raster (8 * bpl) h (bitAt B) := raster_congr fun _ _ hx hy => getLsbD_packBits hB hx hy
    _ = B := (hB.eq_raster_getD false).symm

theorem packBits_unpackBits {bpl h : Nat} {ras : List Byte} (hras : ras.length = bpl * h) :
    packBits bpl (unpackBits bpl h ras) = ras := by
  have hshape := shaped_unpackBits bpl h ras
  refine List.ext_getElem (by rw [length_packBits, hshape.1, hras]) fun j hpacked hj => ?_
  have hbpl : 0 < bpl := Nat.pos_of_mul_pos_right (by omega : 0 < bpl * h)
  have hy : j / bpl < h := Nat.div_lt_of_lt_mul (by omega)
  have hbyte := getElem?_packBits hshape hy (Nat.mod_lt j hbpl)
  rw [packByte_unpackBits ras (Nat.mod_lt j hbpl) hy, Nat.div_add_mod' j bpl,
    List.getElem?_eq_getElem hpacked, List.getD_eq_getElem _ _ hj] at hbyte
  exact Option.some.inj hbyte

/-- The raster stands between the 13 bytes of the header and the trailer (43_pack.md R410). -/
theorem take_drop_frameRaster (ras : List Byte) (bpl h : Nat) :
    ((frameRaster ras bpl h).drop 13).take ras.length = ras := by
  rw [frameRaster, List.append_assoc, List.drop_left' (length_frameHeader bpl h), List.take_left]

end Sys2Proof.Machine
end

section
/-! The statements about level 255 and about packing (43_pack.md R405, R406). -/

namespace Sys2Proof.Machine

/-- Settles O57: the sample its pixel reads is still at or above the mode's threshold. -/
theorem fullSamplesDitherWhite : Obligations.FullSamplesDitherWhite := by
  intro cfg G x y ht hordered hG hx hy hfull
  have hread := threshold_le_fieldBefore_of_full ht hG hx hy hfull
  have hwhite : decision cfg x y (sampleAt (fieldBefore cfg G (y * cfg.w + x)) x y) = false := by
    cases hmode : cfg.mode with
    | floydSteinberg => rw [decision_of_diffusing (.inl hmode), decide_eq_false (by omega)]
    | atkinson => rw [decision_of_diffusing (.inr hmode), decide_eq_false (by omega)]
    | ordered8x8 =>
      rw [fieldBefore_of_pointwise (.inl hmode), hfull,
        decision_full_of_ordered hmode (hordered hmode)]
    | flat => rw [decision_of_flat hmode, decide_eq_false (by omega)]
  rw [ditherBits_eq_raster, bitAt_raster _ hx hy, scanBit, ditherBody_snd, hwhite, Bool.false_xor]

/-- Settles O58: both round trips compare bit `7 - i` of a byte with pixel `i` of its eight. -/
theorem packUnpackRoundTrip : Obligations.PackUnpackRoundTrip := by
  intro bpl h
  refine ⟨fun B hlen hrows => ⟨unpackBits_packBits ⟨hlen, hrows⟩, ?_⟩,
    fun ras hras => ⟨packBits_unpackBits hras, shaped_unpackBits bpl h ras⟩, fun ras hras => ?_⟩
  · rw [length_packBits, hlen]
  · rw [← hras, take_drop_frameRaster]

end Sys2Proof.Machine
end

section
/-! The idle engine and the interrupt line (60_exceptions.md R475, R460). -/

namespace Sys2Proof.Machine

/-! ### What lowers the line -/

theorem State.irq_of_not_done {s : State} (h : s.done = false) : s.irq = false := by
  rw [State.irq, h, Bool.and_false]

theorem State.irq_accept (s : State) (w : Word) : (s.accept w).irq = false :=
  State.irq_of_not_done rfl

/-- Bit 1 of a `STATUS` write is the one of `DONE` (10_state.md R77). -/
theorem State.irq_clearStatus {v : Word} (hv : v.getLsbD 1 = true) (s : State) :
    (s.clearStatus v).irq = false := by
  apply State.irq_of_not_done
  rw [State.clearStatus_done, hv, Bool.not_true, Bool.and_false]

/-! ### The statements -/

/-- Settles O10: in both turn forms the step is the engine's turn. -/
theorem idleEngineKeepsState : Obligations.IdleEngineKeepsState := by
  intro s hj
  refine ⟨fun hin => ?_, fun rest hin => ?_⟩
  · rw [step_of_inputs_nil hin, engineTurn_of_idle hj]
  · rw [step_of_inputs_cons hin]
    exact engineTurn_of_idle hj

/-- Settles O41: the `CMD` write is `accept`, the `STATUS` write `clearStatus`; both leave `DONE` 0. -/
theorem interruptLevel : Obligations.InterruptLevel := by
  intro s
  refine ⟨rfl, fun w t hj hwrite => ?_, fun v t hv hwrite => ?_⟩
  · have ht : t = s.accept w :=
      Host.Outcome.next.inj (hwrite.symm.trans (idleCommandAccepted s w hj))
    rw [ht, State.irq_accept]
  · have ht : t = s.clearStatus v :=
      Host.Outcome.next.inj (hwrite.symm.trans (hostRegWrite_of_ok (by decide) (by decide) v s))
    rw [ht, State.irq_clearStatus hv]

end Sys2Proof.Machine
end

section
/-! Reset: the state it leaves, and what it does to a running job (70_reset_and_hazards.md R500-R503). -/

namespace Sys2Proof.Machine

/-! ### What the reset state's registers select (R502) -/

@[simp] theorem State.reset_mode : State.reset.mode = .floydSteinberg := rfl
@[simp] theorem State.reset_invert : State.reset.invert = false := rfl
@[simp] theorem State.reset_sharpen : State.reset.sharpen = false := rfl
@[simp] theorem State.reset_frame : State.reset.frame = false := rfl
@[simp] theorem State.reset_infmt : State.reset.infmt = .y8 := rfl
@[simp] theorem State.reset_threshold : State.reset.threshold = 128 := rfl
@[simp] theorem State.reset_irqEn : State.reset.irqEn = false := rfl
@[simp] theorem State.reset_srcWidth : State.reset.srcWidth = 0 := rfl
@[simp] theorem State.reset_statusWord : State.reset.statusWord = 0#32 := rfl
@[simp] theorem State.reset_irq : State.reset.irq = false := State.irq_of_not_done rfl

/-- Every LUT entry is unwritten after reset (R501). -/
theorem State.reset_lut_written (i : Fin 256) : (State.reset.lut[i.val]'i.isLt).written = false := by
  simp [State.reset]

/-- A memory job right after reset: its format is legal and its width is 0 (R503). -/
theorem State.launchError_reset (k : JobKind) : State.reset.launchError k = some .badGeometry :=
  State.launchError_of_geometry (fun h => nomatch h.2) (.inl State.reset_srcWidth)

/-! ### The Bayer window as one table -/

/-- The place `k` of the window is row `k / 8`, column `k % 8` of the matrix, entry `k` of the ROM
(10_state.md R83). -/
theorem State.toNat_regValue_bayer (s : State) (k : Fin 64) :
    (s.regValue (.bayer k)).toNat = bayerRom[k.val]'k.isLt := by
  have hle := bayer_le (k.val / 8) (k.val % 8)
  rw [State.regValue, BitVec.toNat_ofNat, Nat.mod_eq_of_lt (by omega), bayer, Nat.div_add_mod,
    List.getD_eq_getElem _ _ k.isLt]

theorem State.map_regValue_bayer (s : State) :
    (List.finRange 64).map (fun k => (s.regValue (.bayer k)).toNat) = bayerRom := by
  refine List.ext_getElem (by simp [bayerRom]) fun k hk hk' => ?_
  rw [List.getElem_map, List.getElem_finRange, State.toNat_regValue_bayer]
  rfl

/-! ### The job a reset abandons -/

theorem State.runningWrites_of_idle {s : State} (hj : s.job = none) : s.runningWrites = [] := by
  simp only [State.runningWrites, hj]

theorem State.runningWrites_of_busy {s : State} {w : Word} (hj : s.job = some w) :
    s.runningWrites = s.dstAddrs (s.jobWriteLength w) := by
  simp only [State.runningWrites, hj]

/-- A pending reset event is taken whether the engine is busy or idle (R500). -/
theorem step_of_reset {s : State} {rest : List Input} (hin : s.inputs = .reset :: rest) :
    step s = .next ({ s with inputs := rest } : State).resetEvent :=
  step_of_inputs_cons hin

/-- Reset lowers the interrupt line, whatever completed before it (R500). -/
@[simp] theorem State.resetEvent_irq (s : State) : s.resetEvent.irq = false := State.irq_of_not_done rfl

@[simp] theorem State.resetEvent_statusWord (s : State) :
    s.resetEvent.statusWord = State.reset.statusWord := rfl

/-- A reset while idle changes no memory and uses no free value (R500). -/
theorem State.resetEvent_of_idle {s : State} (hj : s.job = none) :
    s.resetEvent.mem = s.mem ∧ s.resetEvent.fresh = s.fresh := by
  rw [State.resetEvent_mem, State.resetEvent_fresh, State.runningWrites_of_idle hj]
  exact ⟨rfl, rfl⟩

/-- A write set whose every byte is freed holds the free bytes in the order of the output (log 5). -/
theorem State.readByte_garble_dstAddrs {s : State} {n : Nat} (hn : n ≤ addressSpace)
    (hwf : Memory.wf s.mem = true) {j : Nat} (hj : j < n) :
    readByte (s.garble (s.dstAddrs n)).mem (s.dstByteAddr j) = Config.freeByte (s.fresh + j) := by
  have hj' : j < (s.dstAddrs n).length := by rwa [State.length_dstAddrs]
  have hbyte := State.readByte_garble (s.nodup_dstAddrs hn) (fun _ => State.lt_of_mem_dstAddrs) hwf hj'
  rwa [State.getElem_dstAddrs] at hbyte

section
variable {s : State} {w : Word} (hj : s.job = some w)
include hj

/-- Bytes outside the abandoned job's write set are not changed (R500). -/
theorem State.readByte_resetEvent_of_not_mem {a : Nat} (ha : a ∉ s.dstAddrs (s.jobWriteLength w)) :
    readByte s.resetEvent.mem a = readByte s.mem a := by
  rw [State.resetEvent_mem, State.runningWrites_of_busy hj, State.readByte_garble_of_not_mem ha]

/-- The abandoned job uses one free value for each byte of its write set (log 9). -/
theorem State.resetEvent_fresh_of_busy : s.resetEvent.fresh = s.fresh + s.jobWriteLength w := by
  rw [State.resetEvent_fresh, State.runningWrites_of_busy hj, State.length_dstAddrs]

/-- Every byte of the abandoned job's write set is unspecified (R500; log 9). -/
theorem State.readByte_resetEvent (hwf : Memory.wf s.mem = true) (hp : s.plat.wf = true) {j : Nat}
    (hlt : j < s.jobWriteLength w) :
    readByte s.resetEvent.mem (s.dstByteAddr j) = Config.freeByte (s.fresh + j) := by
  rw [State.resetEvent_mem, State.runningWrites_of_busy hj,
    State.readByte_garble_dstAddrs (State.jobWriteLength_lt hp w).le hwf hlt]

end

/-! ### The statements -/

/-- Settles O7: the step is `resetEvent`, which frees the write set of the latched job. -/
theorem resetEventAbandonsJob : Obligations.ResetEventAbandonsJob := by
  intro s rest hin
  refine ⟨_, step_of_reset hin, rfl, rfl, rfl, rfl, rfl,
    (State.resetEvent_statusWord _).trans State.reset_statusWord, rfl, rfl, rfl, rfl,
    State.resetEvent_irq _, State.reset_lut_written, rfl, rfl, rfl, fun hj => ?_, fun hj => ?_,
    fun w hj => ?_⟩
  · exact (State.resetEvent_of_idle (s := { s with inputs := rest }) hj).1
  · exact (State.resetEvent_of_idle (s := { s with inputs := rest }) hj).2
  · have hbusy : ({ s with inputs := rest } : State).job = some w := hj
    exact ⟨fun a ha => State.readByte_resetEvent_of_not_mem hbusy ha,
      State.resetEvent_fresh_of_busy hbusy,
      fun hwf hp j hlt => State.readByte_resetEvent hbusy hwf hp hlt⟩

/-- Settles O5: the registers read as the reset state holds them, and the Bayer window as the ROM. -/
theorem resetLeavesTableValues : Obligations.ResetLeavesTableValues :=
  ⟨rfl, rfl, rfl, State.reset_mode, State.reset_invert, State.reset_sharpen, State.reset_frame,
    State.reset_infmt, State.reset_threshold, State.reset_irqEn, rfl, rfl, rfl, rfl,
    State.reset_statusWord, rfl, rfl, State.reset_lut_written, State.map_regValue_bayer _, rfl, rfl,
    State.reset_irq⟩

/-- Settles O6, clause by clause in `State.inv_reset`. -/
theorem resetHasInvariant : Obligations.ResetHasInvariant := State.inv_reset

/-- Settles O8: NOP is `retireOk`; a memory job fails its launch check, before any memory access. -/
theorem afterResetOnlyNopSucceeds : Obligations.AfterResetOnlyNopSucceeds :=
  ⟨fun _ => ⟨_, rfl, rfl, rfl⟩,
    fun k _ => ⟨_, exec_of_launchError (State.launchError_reset k), rfl, rfl, rfl⟩,
    State.reset_mode, State.reset_threshold, State.reset_infmt, State.reset_sharpen,
    State.reset_invert, State.reset_frame⟩

end Sys2Proof.Machine
end
